-- ==== Sys2Proof/Word.lean ====
section
/-! DEFINITION. Words of the client channels and the names that travel in commands: channels, permits,
straps, request codes. -/

namespace Sys2Proof

/-- A word of a client channel (R183). -/
abbrev Word := BitVec 16

/-- An epoch time: 32 bits of milliseconds (R15). -/
abbrev Time := BitVec 32

/-- A fibre pair, 0 to 7; also a position code of the selector switch (R8). -/
abbrev Pair := Fin 8

/-- A sample of the converter, a signed value from -2048 to 2047 (section 1.7). -/
abbrev Sample := BitVec 12

/-- The three client channels (00_scope.md, "Client side"). -/
inductive Channel where
  | ch0 | ch1 | ch2
deriving DecidableEq, Repr

/-- The PERMIT strap of a channel (R178). -/
inductive Permit where
  | full | observe
deriving DecidableEq, Repr

/-- One thing for each client channel. -/
structure PerChannel (α : Type) where
  ch0 : α
  ch1 : α
  ch2 : α
deriving DecidableEq, Repr

/-- The strap inputs (R178). `pairsFitted` is the 3-bit value v that gives v + 1 fitted pairs. -/
structure Straps where
  pairsFitted : BitVec 3
  permits     : PerChannel Permit
  autoPermit  : Bool
deriving DecidableEq, Repr

/-- The named requests of the table of request codes (R185). -/
inductive Request where
  | claim | claimIfClean | check | takeover | release
  | writeLineSetup | writeHousing | writeTemplate | writeWatchPoint
  | enableWatchPoints | disableWatchPoints | writeBaseline | writePairPolicy
  | setQuarantine | clearQuarantine | bindQueue
  | startSweep | sendCommand | cancelWork | resetLine
  | readQueue | readWatchPoints | readHousing | readVerdict | readClaims
  | readLineState | readTime | readAlarms | ackAlarm | clearPort
deriving DecidableEq, Repr

end Sys2Proof
end

