-- ==== Sys2Proof/Config.lean ====
section
/-! DEFINITION. What the part fixes (sizes) and what the model fixes for `State.reset` (the input levels
that no rule gives). There is no free value. -/

namespace Sys2Proof.Config

/-- Housings 0 to 192 (R18). -/
def housingCount : Nat := 193

/-- Cells of the Cell Memory (section 4.1). -/
def cellCount : Nat := 8192

/-- Entries of the Work Queue (R38). -/
def workQueueSize : Nat := 16

/-- Records of one report queue (R155). -/
def reportQueueSize : Nat := 64

/-- Largest cell value (section 4.1). -/
def cellMax : Int := 2147483647

/-- Smallest cell value (section 4.1). -/
def cellMin : Int := -2147483648

/-- DESIGN CHOICE, unsafe (log 1): the straps of `State.reset`. The manual leaves them to the board; RESET_RELEASE
samples any others. -/
def resetStraps : Straps :=
  { pairsFitted := 7, permits := ⟨.full, .full, .full⟩, autoPermit := true }

/-- DESIGN CHOICE, unsafe (log 1): the presence lines of `State.reset`. -/
def resetPresence : PerChannel Bool := ⟨true, true, true⟩

end Sys2Proof.Config
end

