-- ==== Sys2Proof/Syntax.lean ====
section
/-! DEFINITION. The commands: one constructor for each row of spec/opcode_table.json. -/

namespace Sys2Proof

/-- The steps of the part (opcode_table.json; 95_what_each_step_holds.md). A request row carries the calling
channel: its parameters are the words that channel's unit has collected and handed over (R171, log 4). -/
inductive Instr where
  /-- The reset input is asserted (R58). -/
  | resetAssert
  /-- The reset input is released; the strap inputs are sampled (R14, R178). -/
  | resetRelease (straps : Straps)
  /-- A millisecond ends (R15). -/
  | epochTick
  /-- The presence line of a channel falls (R175). `before` is the number of CANCELLED records the Line Sequencer
  posts ahead of the Claim and Alarm Unit's records, an order R149 leaves open (log 9). -/
  | presenceLoss (ch : Channel) (before : Nat)
  /-- The presence line of a channel rises (R176). -/
  | presenceReturn (ch : Channel)
  /-- The master offers a function word (R167). -/
  | functionWord (ch : Channel) (w : Word)
  /-- The master offers a parameter word in PARAMETERS (R169). -/
  | parameterWord (ch : Channel) (w : Word)
  /-- The master offers a word outside parameter collection (R169). -/
  | strayWord (ch : Channel) (w : Word)
  /-- The master drops active in PARAMETERS (R170). -/
  | shortParameters (ch : Channel)
  /-- The unit takes the owning block's answer (R171). -/
  | answerTaken (ch : Channel)
  /-- The master reads: it takes one reply word in REPLY (R172), or finds none in PENDING (R174). -/
  | replyWordRead (ch : Channel)
  /-- The master drops active for input (R172, R174). -/
  | replyAbandoned (ch : Channel)
  | claim (ch : Channel)
  | claimIfClean (ch : Channel)
  | check (ch : Channel)
  | takeover (ch : Channel)
  | release (ch : Channel)
  | writeLineSetup (ch : Channel)
  | writeHousing (ch : Channel)
  | writeTemplate (ch : Channel)
  | writeWatchPoint (ch : Channel)
  | enableWatchPoints (ch : Channel)
  | disableWatchPoints (ch : Channel)
  | writeBaseline (ch : Channel)
  | writePairPolicy (ch : Channel)
  | setQuarantine (ch : Channel)
  | clearQuarantine (ch : Channel)
  | bindQueue (ch : Channel)
  | startSweep (ch : Channel)
  | sendCommand (ch : Channel)
  | cancelWork (ch : Channel)
  | resetLine (ch : Channel)
  | readQueue (ch : Channel)
  | readWatchPoints (ch : Channel)
  | readHousing (ch : Channel)
  | readVerdict (ch : Channel)
  | readClaims (ch : Channel)
  | readLineState (ch : Channel)
  | readTime (ch : Channel)
  | readAlarms (ch : Channel)
  | ackAlarm (ch : Channel)
  /-- A CLEAR_PORT function word is taken (R177). -/
  | clearPort (ch : Channel)
  /-- The Line Sequencer takes work (R44). `checks` says whether the start checks follow in the same step or the
  step stops in START_CHECKS (log 5). -/
  | takeWork (checks : Bool)
  /-- The confirm flag is asserted with a position code (R8). -/
  | selectorConfirm (code : Pair)
  /-- The settle limit has passed (R8). -/
  | selectorSettleExpiry
  /-- The confirm input changes away from the requested position (R9): `none` when the flag drops. -/
  | lossOfPosition (input : Option Pair)
  /-- The receiver loss-of-signal input takes a level (R13, log 8). -/
  | receiverLos (asserted : Bool)
  | settlePeriodEnd
  | integratePeriodEnd
  | integrateComplete
  | watchPointAction
  | streakUpdate
  | verdictClearing
  | verdictReplacement
  | verdictRaise
  | isolationStart
  | postSwapEscalation
  | baselineVerdictClearing
  | evaluationDone
  | frameBitPeriodEnd
  | frameEnd
  | roundTripEnd
  | intervalClassified
  | busyTimeout
  /-- A chip instant ends and the sample of the converter is taken (R5, R11). -/
  | sampleStrobe (sample : Sample)
deriving DecidableEq, Repr

end Sys2Proof
end

