-- ==== Sys2Proof/Machine/State.lean ====
section
/-! DEFINITION. The state of the LC-819 as plain data, its reset value, and the reasons a step can stop. -/

namespace Sys2Proof.Machine

/-- The manual names no command that stops the part: this type has no constructor (INVENTORY.md, "Faults"). -/
inductive Fault : Type
deriving DecidableEq, Repr

/-- Why a command is refused. -/
inductive Refusal where
  /-- Raised by `exec` for a command that has no meaning yet; none is left. Safe: the model stops. -/
  | notModelled (mnemonic : String)
deriving DecidableEq, Repr

/-- An indexed memory or table of the part: index and contents, in one canonical form (`Memory.wf`). -/
abbrev Memory (α : Type) := List (Nat × α)

/-! ### Names and records of the chapters -/

/-- The report queues (R155). -/
inductive RQ where
  | rq0 | rq1 | rq2 | rq3
deriving DecidableEq, Repr

/-- One thing for each report queue. -/
structure PerQueue (α : Type) where
  rq0 : α
  rq1 : α
  rq2 : α
  rq3 : α
deriving DecidableEq, Repr

/-- The claimed resources (R141). -/
inductive Resource where
  | line | tables
deriving DecidableEq, Repr

/-- The origin of work: a channel, or AUTO for work placed by the Localiser (R38, R41). -/
inductive Origin where
  | channel (ch : Channel)
  | auto
deriving DecidableEq, Repr

/-- Conditions of a watch point (R25). -/
inductive Condition where
  | unobserved | unreferenced | normal | watch | low | absent
deriving DecidableEq, Repr

/-- Pump states (R25). -/
inductive PumpState where
  | unknown | primary | secondary
deriving DecidableEq, Repr

/-- Fault kinds (R102). -/
inductive FaultKind where
  | sectionOpen | loopbackFault | amplifierDegraded | sectionExcessLoss | unresolved
deriving DecidableEq, Repr

/-- A candidate or verdict other than NONE (R96, R102); NONE is `none` of its Option. -/
structure Verdict where
  kind : FaultKind
  lead : Nat
deriving DecidableEq, Repr

/-- Isolation status (R102). -/
inductive IsolationStatus where
  | notApplicable | pending | inFlight | swapped | quarantined | cancelled | notPermitted | failed
deriving DecidableEq, Repr

/-- A Verdict Register (R102). -/
structure VerdictRegister where
  candidate : Option Verdict
  streak    : Nat
  confirmed : Option Verdict
  raised    : Time
  status    : IsolationStatus
  postSwap  : Nat
deriving DecidableEq, Repr

/-- Sweep kinds (R38). -/
inductive SweepKind where
  | monitor | baseline
deriving DecidableEq, Repr

/-- Repeater operations (R120). -/
inductive Operation where
  | mark | pumpSwap | pumpRestore | readTelemetry
deriving DecidableEq, Repr

/-- What a piece of work does (R38, R41). -/
inductive WorkKind where
  | sweep (kind : SweepKind) (periods : Nat)
  | command (housing : Nat) (op : Operation) (attempts : Nat)
deriving DecidableEq, Repr

/-- An entry of a line queue, or the current work (R38, R41). -/
structure Work where
  tag    : BitVec 8
  origin : Origin
  pair   : Pair
  kind   : WorkKind
deriving DecidableEq, Repr

/-- The states of the Line Sequencer other than IDLE (section 3.4); IDLE is "no current work" (R45). -/
inductive LineState where
  | startChecks | select | settle | integrate | evaluate
  | commandTx | responseWait | busyWait | responseRx
deriving DecidableEq, Repr

/-- The current work with the Line Sequencer's state (R45) and the sequence length L taken with it (R1). -/
structure Current where
  work  : Work
  state : LineState
  len   : Nat
deriving DecidableEq, Repr

/-- Outcomes of line work (R186). -/
inductive WorkOutcome where
  | completed | degradedInput | referenceLost | cellBudget | selectorFault | receiverLos | cancelled
  | done | refusedByRepeater | repeaterFault | noResponse | mismatch | busyTimeout | notVisible | unsupported
deriving DecidableEq, Repr

/-- The three telemetry words of a READ_TELEMETRY, present or absent together (R119, R133). -/
structure Telemetry where
  word1 : Word
  word2 : Word
  word3 : Word
deriving DecidableEq, Repr

/-- Causes of VERDICT_CLEARED (R158). -/
inductive ClearCause where
  | replaced | rebaselined | lineReset
deriving DecidableEq, Repr

/-- Causes of CLAIM_LOST (R158). -/
inductive LostCause where
  | takenOver | presenceLost
deriving DecidableEq, Repr

/-- The kinds of record with their fields but the time (R158). -/
inductive RecordBody where
  | sweepDone (tag : BitVec 8) (pair : Pair) (kind : SweepKind) (outcome : WorkOutcome)
      (evaluated saturated clip : Nat)
  | commandDone (tag : BitVec 8) (origin : Origin) (pair : Pair) (housing : Nat) (op : Operation)
      (outcome : WorkOutcome) (attempts : Nat) (status : Option Word) (telemetry : Option Telemetry)
  | conditionChange (pair : Pair) (housing : Nat) (old new : Condition) (level : Nat) (deviation : Option Nat)
  | verdictRaised (pair : Pair) (verdict : Verdict)
  | verdictCleared (pair : Pair) (verdict : Verdict) (cause : ClearCause)
  | quarantine (pair : Pair) (housing : Nat) (set : Bool) (depth : Nat) (origin : Origin)
  | claimLost (resource : Resource) (owner : Channel) (cause : LostCause)
deriving DecidableEq, Repr

/-- A record with its time stamp (R16, R158). -/
structure Record where
  body : RecordBody
  time : Time
deriving DecidableEq, Repr

/-! ### State of the blocks -/

/-- Channel phases (R166). -/
inductive ChannelPhase where
  | idle | parameters | awaiting | reply | disconnected
deriving DecidableEq, Repr

/-- A request whose parameter words are being collected: its code and the selector of its modifier (R167, R168). -/
structure OpenRequest where
  request  : Request
  selector : Pair
deriving DecidableEq, Repr

/-- The four handshake signals the part drives on a channel (section 10.1). -/
structure Handshake where
  function : Bool
  active   : Bool
  full     : Bool
  empty    : Bool
deriving DecidableEq, Repr

/-- A Client Channel Unit (R166). `collecting` is the open request in PARAMETERS; `reading` says that the master holds
active for input (R174). -/
structure ChannelUnit where
  phase      : ChannelPhase
  collecting : Option OpenRequest
  params     : List Word
  reply      : List Word
  discard    : Bool
  reading    : Bool
  handshake  : Handshake
deriving DecidableEq, Repr

/-- A request handed over by a channel (R171). `live` is false once the transaction that handed it over has ended, so
that its answer will be discarded. `lost` is true once the channel's presence has been lost after the handing over, so
that a claim request is not executed any more (R150, R175; log 31). -/
structure Handed where
  channel  : Channel
  request  : Request
  selector : Pair
  params   : List Word
  live     : Bool
  lost     : Bool
deriving DecidableEq, Repr

/-- Status codes (R187). -/
inductive Status where
  | accepted | abort | notPermitted | notClaimed | outOfRange | shortParameters | unknownRequest | pairBusy
  | watchPointEnabled | templateInUse | duplicateAddress | lagOrder | thresholdOrder | queueFull | notBound
  | noSuchWork | tooLate | lineNotIdle
deriving DecidableEq, Repr

/-- What an owning block answers: a status code, flags, the words-requested count and data words (R171, R173). -/
structure Reply where
  status    : Status
  clamped   : Bool
  overflow  : Bool
  requested : Nat
  data      : List Word
deriving DecidableEq, Repr

/-- An answer given by a block and not yet taken by the unit (R171). -/
structure Answer where
  channel : Channel
  live    : Bool
  reply   : Reply
deriving DecidableEq, Repr

/-- A claim record (R141). -/
structure Claim where
  owner : Option Channel
  tag   : Word
  since : Time
deriving DecidableEq, Repr

/-- The alarm summary (R153): bit p of `verdict` is the VERDICT item of pair p. -/
structure Alarms where
  verdict       : BitVec 8
  selectorFault : Bool
  receiverLos   : Bool
deriving DecidableEq, Repr

/-- The Line Setup (R1). -/
structure LineSetup where
  m      : Nat
  k      : Nat
  refLag : Nat
  settle : Nat
deriving DecidableEq, Repr

/-- Order of bits within a nibble (R18). -/
inductive BitOrder where
  | msbFirst | lsbFirst
deriving DecidableEq, Repr

/-- Order of nibbles within a frame or word (R18). -/
inductive NibbleOrder where
  | highFirst | lowFirst
deriving DecidableEq, Repr

/-- An entry of the Housing Table (R18). -/
structure HousingEntry where
  present     : Bool
  address     : Nat
  lag         : Nat
  bitOrder    : BitOrder
  nibbleOrder : NibbleOrder
  longCapable : Bool
  swapCapable : Bool
deriving DecidableEq, Repr

/-- A Window Template (R22). -/
structure Template where
  width      : Nat
  trackLimit : Nat
deriving DecidableEq, Repr

/-- A record of the Watch Point Table (R24, R25). An absent field is `none`; `quarantine` holds the skip depth while
the quarantine is on. -/
structure WatchPoint where
  template   : Nat
  queue      : RQ
  tracking   : Bool
  enabled    : Bool
  centre     : Nat
  baseline   : Option Nat
  level      : Option Nat
  norm       : Option Nat
  deviation  : Option Nat
  condition  : Condition
  offset     : Nat
  edge       : Bool
  saturated  : Bool
  pump       : PumpState
  quarantine : Option Nat
  updated    : Time
deriving DecidableEq, Repr

/-- A record of the Pair Policy Table (R32), its fields in the order of that table. -/
structure Policy where
  watchThreshold   : Nat
  degradeThreshold : Nat
  floorThreshold   : Nat
  levelMin         : Nat
  normalise        : Bool
  refFloor         : Nat
  confirmCount     : Nat
  recoveryDepth    : Nat
  tolerance        : Nat
  clipLimit        : Nat
  autoIsolate      : Bool
  verdictQueue     : RQ
  responsePeriods  : Nat
  busyLimit        : Nat
deriving DecidableEq, Repr

/-- The sequence generator (R4): stage k is bit k - 1; m and k are taken at each load (R1). -/
structure Generator where
  m      : Nat
  k      : Nat
  stages : BitVec 15
deriving DecidableEq, Repr

/-- The running chip timer (R5): the chip instant in progress, and how many period ends of this load the sequencer or
the Command Unit has taken. -/
structure ChipTimer where
  index : Nat
  ends  : Nat
deriving DecidableEq, Repr

/-- The running settle timer (R8): the epoch count at the request and the settle limit taken with it. -/
structure SettleTimer where
  start : Time
  limit : Nat
deriving DecidableEq, Repr

/-- A cell of the Cell Memory: a signed 32-bit accumulator and its saturation marker (section 4.1). -/
structure Cell where
  value  : Int
  marked : Bool
deriving DecidableEq, Repr

/-- A segment of the allocation (section 4.1). -/
structure Segment where
  housing : Nat
  width   : Nat
  centre  : Nat
  first   : Nat
deriving DecidableEq, Repr

/-- The cell values of a closed response interval, handed to the Level Arithmetic Unit (R127). -/
structure Interval where
  number : Nat
  values : List Int
deriving DecidableEq, Repr

/-- Which action of an evaluation comes next (R94, R115). -/
inductive EvalStage where
  | segments | streak | clearing | replacement | raising | isolation | escalation | rebaseline | finished
deriving DecidableEq, Repr

/-- The evaluation in progress: the segments handed over and not yet done, the policy as it stood when it began, λ_ref,
the counts of R78, whether the input is degraded, and whether the reference was lost (R79). -/
structure Evaluation where
  remaining : List Segment
  policy    : Policy
  refLevel  : Nat
  evaluated : Nat
  saturated : Nat
  degraded  : Bool
  refLost   : Bool
  stage     : EvalStage
deriving DecidableEq, Repr

/-- Phases of the Command Unit (R119). -/
inductive CommandPhase where
  | free | checking | frame | roundTrip | readySearch | startSearch | data
deriving DecidableEq, Repr

/-- The values a command captures when its start checks pass (R122), with the transmission sequence (R124). -/
structure Captured where
  address     : Nat
  bitOrder    : BitOrder
  nibbleOrder : NibbleOrder
  levelOn     : Nat
  threshold   : Nat
  periods     : Nat
  busyLimit   : Nat
  attempts    : Nat
  sequence    : List Bool
deriving DecidableEq, Repr

/-- The Command Unit (R119). -/
structure CommandUnit where
  phase      : CommandPhase
  captured   : Option Captured
  bit        : Nat
  interval   : Nat
  startCount : Nat
  litRun     : Bool
  collector  : List Bool
  attempt    : Nat
  status     : Option Word
  telemetry  : Option Telemetry
deriving DecidableEq, Repr

/-- A report queue with its overflow marker and its binding (R155, R156). -/
structure ReportQueue where
  records  : List Record
  overflow : Bool
  binding  : Option Channel
deriving DecidableEq, Repr

/-- The state of the part: pins, straps, the state of its thirteen blocks (00_scope.md, "Block overview"), what passes
between them, and the queue of commands that wait. -/
structure State where
  /-- The reset input is asserted (R58). -/
  resetAsserted  : Bool
  /-- The presence lines (R175). -/
  presenceLine   : PerChannel Bool
  /-- The receiver loss-of-signal input (R13). -/
  losInput       : Bool
  /-- The selector's confirm input: the code while the flag is asserted (R8). -/
  confirmInput   : Option Pair
  /-- The straps as sampled at release (R178). -/
  straps         : Straps
  /-- The Epoch Counter (R15). -/
  epoch          : Time
  /-- The Client Channel Units (R166). -/
  channels       : PerChannel ChannelUnit
  /-- Requests handed over and not yet taken by their blocks, oldest first (R171). -/
  handed         : List Handed
  /-- Answers not yet taken by the units, oldest first (R171). -/
  answers        : List Answer
  /-- Reads deferred during EVALUATE, oldest first (R30). -/
  deferred       : List Handed
  /-- Presence views (R142): true is PRESENT. -/
  views          : PerChannel Bool
  /-- Claim record LINE (R141). -/
  lineClaim      : Claim
  /-- Claim record TABLES (R141). -/
  tablesClaim    : Claim
  /-- The alarm summary (R153). -/
  alarms         : Alarms
  /-- The Line Setup (R1). -/
  lineSetup      : LineSetup
  /-- The Housing Table, entries 1 to 192 (R18). -/
  housings       : Memory HousingEntry
  /-- The Window Templates (R22). -/
  templates      : Memory Template
  /-- The Watch Point Table (R24, R25). -/
  watchPoints    : Memory WatchPoint
  /-- The Pair Policy Table (R32). -/
  policies       : Memory Policy
  /-- The Work Queue, head first (R38). -/
  workQueue      : List Work
  /-- The Isolation Queue, head first (R41). -/
  isolationQueue : List Work
  /-- The current work; none in IDLE (R45). -/
  current        : Option Current
  /-- The selector position; none is UNKNOWN (R48). -/
  position       : Option Pair
  /-- The work tag counter (R43). -/
  tagCounter     : BitVec 8
  /-- The sequence generator (R4). -/
  generator      : Generator
  /-- The chip timer; none while stopped (R5). -/
  chipTimer      : Option ChipTimer
  /-- Selector Control's requested position; none is UNKNOWN (R8). -/
  requested      : Option Pair
  /-- The settle timer; none while stopped (R8). -/
  settleTimer    : Option SettleTimer
  /-- The clip count (R12). -/
  clipCount      : Nat
  /-- The Cell Memory (section 4.1). -/
  cells          : Memory Cell
  /-- The allocation (R59). -/
  allocation     : List Segment
  /-- The chip history (R62): true is +1. -/
  chipHistory    : Memory Bool
  /-- Closed response intervals not yet classified, oldest first (R127, R128; that several can wait is log 34). -/
  intervals      : List Interval
  /-- The evaluation in progress (R78). -/
  evaluation     : Option Evaluation
  /-- The Verdict Registers (R102). -/
  verdicts       : Memory VerdictRegister
  /-- The Command Unit (R119). -/
  cmu            : CommandUnit
  /-- The report queues (R155). -/
  queues         : PerQueue ReportQueue
  /-- The home-queue map (R156). -/
  homes          : PerChannel RQ
  /-- Commands waiting, first in first out. -/
  pending        : List Instr
deriving DecidableEq, Repr

/-! ### The state after reset -/

/-- A Client Channel Unit after release: IDLE or DISCONNECTED by its presence line (R166). -/
def ChannelUnit.reset (present : Bool) : ChannelUnit :=
  { phase := if present then .idle else .disconnected, collecting := none, params := [], reply := []
    discard := false, reading := false, handshake := ⟨false, false, false, false⟩ }

/-- A claim record after reset (R141). -/
def Claim.reset : Claim := { owner := none, tag := 0, since := 0 }

/-- The Command Unit in FREE (R119); the other working values are the model's choice (log 16). -/
def CommandUnit.reset : CommandUnit :=
  { phase := .free, captured := none, bit := 0, interval := 0, startCount := 0, litRun := false
    collector := [], attempt := 0, status := none, telemetry := none }

/-- An empty report queue with a binding (R155, R156). -/
def ReportQueue.reset (binding : Option Channel) : ReportQueue :=
  { records := [], overflow := false, binding := binding }

/-- The part with every block at its reset values, for given straps, inputs and reset input. Memories that list
nothing hold the reset contents their chapters give (`Ops.lean`). -/
def State.initial (asserted : Bool) (straps : Straps) (presence : PerChannel Bool) (los : Bool)
    (confirm : Option Pair) (pending : List Instr) : State :=
  { resetAsserted := asserted, presenceLine := presence, losInput := los, confirmInput := confirm
    straps := straps, epoch := 0
    channels := ⟨.reset presence.ch0, .reset presence.ch1, .reset presence.ch2⟩
    handed := [], answers := [], deferred := []
    views := presence, lineClaim := .reset, tablesClaim := .reset
    alarms := { verdict := 0, selectorFault := false, receiverLos := false }
    lineSetup := { m := 15, k := 2, refLag := 64, settle := 50 }
    housings := [], templates := [], watchPoints := [], policies := []
    workQueue := [], isolationQueue := [], current := none, position := none, tagCounter := 0
    generator := { m := 15, k := 2, stages := 0 }, chipTimer := none
    requested := none, settleTimer := none, clipCount := 0
    cells := [], allocation := [], chipHistory := [], intervals := []
    evaluation := none, verdicts := [], cmu := .reset
    queues := ⟨.reset (some .ch0), .reset (some .ch1), .reset (some .ch2), .reset none⟩
    homes := ⟨.rq0, .rq1, .rq2⟩, pending := pending }

/-- The part right after the reset input is released (R14, R58, R116, R166), with the input levels of log 1. -/
def State.reset : State :=
  .initial false Config.resetStraps Config.resetPresence false none []

end Sys2Proof.Machine
end

