-- ==== Sys2Proof/Machine/Formats.lean ====
section
/-! DEFINITION. The encodings of fields, records and read replies (chapter 11). -/

namespace Sys2Proof.Machine

/-- A number in one word (R184). -/
def word (n : Nat) : Word := BitVec.ofNat 16 n

/-- A 32-bit value in two words, bits 31 to 16 first (R183). -/
def timeWords (t : Time) : List Word := [word (t.toNat / 65536), word t.toNat]

/-- Channel codes (R186). -/
def Channel.code : Channel → Nat
  | .ch0 => 1
  | .ch1 => 2
  | .ch2 => 3

/-- Owner and binding codes: NONE or a channel (R186). -/
def ownerCode : Option Channel → Nat
  | none => 0
  | some c => Channel.code c

/-- Origin codes (R186). -/
def Origin.code : Origin → Nat
  | .channel c => Channel.code c
  | .auto => 4

/-- Report queue numbers (R186). -/
def RQ.code : RQ → Nat
  | .rq0 => 0
  | .rq1 => 1
  | .rq2 => 2
  | .rq3 => 3

/-- Bit order codes (R186). -/
def BitOrder.code : BitOrder → Nat
  | .msbFirst => 0
  | .lsbFirst => 1

/-- Nibble order codes (R186). -/
def NibbleOrder.code : NibbleOrder → Nat
  | .highFirst => 0
  | .lowFirst => 1

/-- Sweep kind codes (R186). -/
def SweepKind.code : SweepKind → Nat
  | .monitor => 0
  | .baseline => 1

/-- Operation codes (R120, R186). -/
def Operation.code : Operation → Nat
  | .mark => 1
  | .pumpSwap => 2
  | .pumpRestore => 3
  | .readTelemetry => 4

/-- Condition codes (R186). -/
def Condition.code : Condition → Nat
  | .unobserved => 0
  | .unreferenced => 1
  | .normal => 2
  | .watch => 3
  | .low => 4
  | .absent => 5

/-- Pump state codes (R186). -/
def PumpState.code : PumpState → Nat
  | .unknown => 0
  | .primary => 1
  | .secondary => 2

/-- Fault kind codes (R186); NONE is 0. -/
def FaultKind.code : FaultKind → Nat
  | .sectionOpen => 1
  | .loopbackFault => 2
  | .amplifierDegraded => 3
  | .sectionExcessLoss => 4
  | .unresolved => 5

/-- Isolation status codes (R186). -/
def IsolationStatus.code : IsolationStatus → Nat
  | .notApplicable => 0
  | .pending => 1
  | .inFlight => 2
  | .swapped => 3
  | .quarantined => 4
  | .cancelled => 5
  | .notPermitted => 6
  | .failed => 7

/-- Cause codes of VERDICT_CLEARED (R186). -/
def ClearCause.code : ClearCause → Nat
  | .replaced => 1
  | .rebaselined => 2
  | .lineReset => 3

/-- Cause codes of CLAIM_LOST (R186). -/
def LostCause.code : LostCause → Nat
  | .takenOver => 1
  | .presenceLost => 2

/-- Resource codes (R185). -/
def Resource.code : Resource → Nat
  | .line => 0
  | .tables => 1

/-- Sequencer state codes; IDLE is no current work (R186). -/
def lineStateCode : Option LineState → Nat
  | none => 0
  | some .select => 1
  | some .settle => 2
  | some .integrate => 3
  | some .evaluate => 4
  | some .commandTx => 5
  | some .responseWait => 6
  | some .busyWait => 7
  | some .responseRx => 8
  | some .startChecks => 9

/-- Outcome codes (R186). -/
def WorkOutcome.code : WorkOutcome → Nat
  | .completed => 1
  | .degradedInput => 2
  | .referenceLost => 3
  | .cellBudget => 4
  | .selectorFault => 5
  | .receiverLos => 6
  | .cancelled => 7
  | .done => 8
  | .refusedByRepeater => 9
  | .repeaterFault => 10
  | .noResponse => 11
  | .mismatch => 12
  | .busyTimeout => 13
  | .notVisible => 14
  | .unsupported => 15

/-- A value sent as 0 when absent (R189). -/
def orZero : Option Nat → Nat
  | none => 0
  | some n => n

/-- A value sent as 0xFFFF when absent (R188, R189, R190). -/
def orFFFF : Option Nat → Nat
  | none => 0xFFFF
  | some n => n

/-- The ten words of a watch point (R189). -/
def WatchPoint.words (h : Nat) (w : WatchPoint) : List Word :=
  [word (h * 256 + w.template * 64 + w.queue.code * 16 + w.tracking.toNat * 8 + w.enabled.toNat * 4
      + w.baseline.isSome.toNat * 2 + w.level.isSome.toNat),
   word w.centre,
   word (orZero w.baseline),
   word (orZero w.level),
   word (orZero w.norm),
   word (orFFFF w.deviation),
   word (w.condition.code * 8192 + w.offset * 128 + w.edge.toNat * 64 + w.saturated.toNat * 32 + w.pump.code * 8),
   word (w.norm.isSome.toNat * 32768 + w.quarantine.isSome.toNat * 8 + orZero w.quarantine)]
  ++ timeWords w.updated

/-- The three words of a Housing Table entry 1 to 192 (R189). -/
def HousingEntry.words (h : Nat) (e : HousingEntry) : List Word :=
  [word (h * 256 + e.present.toNat * 128 + e.bitOrder.code * 8 + e.nibbleOrder.code * 4
      + e.longCapable.toNat * 2 + e.swapCapable.toNat),
   word e.address,
   word e.lag]

/-- The three words of entry 0: present, no address, the reference lag (R18, R189). Entry 0 has no dialect; its four
dialect and capability bits are sent as 0, the model's choice (log 32). -/
def referenceWords (refLag : Nat) : List Word := [word 128, word 0, word refLag]

/-- A candidate or confirmed verdict in one word (R189). -/
def verdictWord : Option Verdict → Word
  | none => word 0
  | some v => word (v.lead * 256 + v.kind.code)

/-- The fourteen policy words (R32, R189). -/
def Policy.words (p : Policy) : List Word :=
  [word p.watchThreshold, word p.degradeThreshold, word p.floorThreshold, word p.levelMin, word p.normalise.toNat,
   word p.refFloor, word p.confirmCount, word p.recoveryDepth, word p.tolerance, word p.clipLimit,
   word p.autoIsolate.toNat, word p.verdictQueue.code, word p.responsePeriods, word p.busyLimit]

/-- The five words of a Verdict Register (R189). -/
def VerdictRegister.words (v : VerdictRegister) : List Word :=
  [verdictWord v.candidate, verdictWord v.confirmed,
   word (v.streak * 4096 + v.postSwap * 256 + v.status.code)] ++ timeWords v.raised

/-- The kind code of a record (R190). -/
def RecordBody.kindCode : RecordBody → Nat
  | .sweepDone .. => 1
  | .commandDone .. => 2
  | .conditionChange .. => 3
  | .verdictRaised .. => 4
  | .verdictCleared .. => 5
  | .quarantine .. => 6
  | .claimLost .. => 7

/-- A status word sent as 0 when absent (R190). -/
def statusOrZero : Option Word → Word
  | none => 0
  | some w => w

/-- The telemetry words of a record, when present (R190). -/
def telemetryWords : Option Telemetry → List Word
  | none => []
  | some t => [t.word1, t.word2, t.word3]

/-- The words after the header of a record (R190). -/
def RecordBody.words : RecordBody → List Word
  | .sweepDone tag pair kind outcome evaluated saturated clip =>
    [word (tag.toNat * 256 + pair.val * 32 + kind.code * 16 + outcome.code), word evaluated, word saturated, word clip]
  | .commandDone tag origin pair housing op outcome attempts status telemetry =>
    [word (tag.toNat * 256 + origin.code * 32 + op.code * 4 + status.isSome.toNat * 2 + telemetry.isSome.toNat),
     word (housing * 256 + pair.val * 32 + attempts * 4), word outcome.code, statusOrZero status]
    ++ telemetryWords telemetry
  | .conditionChange pair housing old new level deviation =>
    [word (housing * 256 + pair.val * 32), word (old.code * 256 + new.code), word level, word (orFFFF deviation)]
  | .verdictRaised pair v => [word (v.lead * 256 + pair.val * 32 + v.kind.code)]
  | .verdictCleared pair v cause => [word (v.lead * 256 + pair.val * 32 + v.kind.code), word cause.code]
  | .quarantine pair housing set depth origin =>
    [word (housing * 256 + pair.val * 32 + origin.code * 4 + set.toNat * 2), word depth]
  | .claimLost resource owner cause =>
    [word (resource.code * 256 + Channel.code owner * 32 + cause.code)]

/-- A whole record: kind and length, time, then its words (R190). -/
def Record.words (r : Record) : List Word :=
  word (r.body.kindCode * 256 + (r.body.words.length + 3)) :: (timeWords r.time ++ r.body.words)

/-- The ten alarm items in one word (R188). -/
def Alarms.word (a : Alarms) : Word :=
  Sys2Proof.Machine.word (a.verdict.toNat + a.selectorFault.toNat * 256 + a.receiverLos.toNat * 512)

end Sys2Proof.Machine
end

