-- ==== Sys2Proof/Machine/Frames.lean ====
section
/-! DEFINITION. The command frame, its transmission sequence, and the reassembly of a response (sections 7.3, 7.5,
11.8). -/

namespace Sys2Proof.Machine

/-- The check field: the sum of the three 6-bit groups of address, pair and operation (R123). -/
def frameCheck (address pair op : Nat) : Nat := (address / 64 + address % 64 + (pair * 8 + op)) % 64

/-- The 24-bit frame (R123, R191). -/
def frameOf (address pair op : Nat) : Nat :=
  address * 4096 + pair * 512 + op * 64 + frameCheck address pair op

/-- The bits of nibble `n` (0 to 15) in the order of sending (R124). -/
def nibbleBits (o : BitOrder) (n : Nat) : List Bool :=
  match o with
  | .msbFirst => [n.testBit 3, n.testBit 2, n.testBit 1, n.testBit 0]
  | .lsbFirst => [n.testBit 0, n.testBit 1, n.testBit 2, n.testBit 3]

/-- Nibble numbers of a frame in the order of sending (R124). -/
def nibbleSequence : NibbleOrder → List Nat
  | .highFirst => [5, 4, 3, 2, 1, 0]
  | .lowFirst => [0, 1, 2, 3, 4, 5]

/-- The preamble (R124). -/
def preamble : List Bool := [true, true, true, true, false, false, true, false]

/-- The 32-bit transmission sequence of a frame (R124). -/
def transmission (b : BitOrder) (n : NibbleOrder) (frame : Nat) : List Bool :=
  preamble ++ (nibbleSequence n).flatMap fun i => nibbleBits b (frame / 16 ^ i % 16)

/-- The value of four bits in arrival order (R131). -/
def nibbleValue (o : BitOrder) (bits : List Bool) : Nat :=
  let b := fun i => (bits.getD i false).toNat
  match o with
  | .msbFirst => b 0 * 8 + b 1 * 4 + b 2 * 2 + b 3
  | .lsbFirst => b 0 + b 1 * 2 + b 2 * 4 + b 3 * 8

/-- Word `k` (from 0) of a response, from bits 16k + 1 to 16k + 16 of the collector (R131). -/
def responseWord (b : BitOrder) (n : NibbleOrder) (bits : List Bool) (k : Nat) : Word :=
  let g := fun i => nibbleValue b ((bits.drop (16 * k + 4 * i)).take 4)
  match n with
  | .highFirst => word (g 0 * 4096 + g 1 * 256 + g 2 * 16 + g 3)
  | .lowFirst => word (g 0 + g 1 * 16 + g 2 * 256 + g 3 * 4096)

/-- Operation echo, pair echo, result, pump bit and address field of a status word (R191). -/
def statusOperation (w : Word) : Nat := w.toNat / 8192
def statusPair (w : Word) : Nat := w.toNat / 1024 % 8
def statusResult (w : Word) : Nat := w.toNat / 256 % 4
def statusPump (w : Word) : PumpState := if w.toNat / 128 % 2 = 0 then .primary else .secondary
def statusAddress (w : Word) : Nat := w.toNat % 128

/-- The check of a status word and the result it gives (R132). -/
def statusOutcome (op : Operation) (pair : Pair) (address : Nat) (w : Word) : WorkOutcome :=
  if statusOperation w = op.code ∧ statusPair w = pair.val ∧ statusAddress w = address % 128 then
    match statusResult w with
    | 0 => .done
    | 1 => .refusedByRepeater
    | 2 => .repeaterFault
    | _ => .mismatch
  else .mismatch

/-- Operations whose answer begins with a busy time and that write a pump state (R120, R136). -/
def Operation.busy : Operation → Bool
  | .pumpSwap | .pumpRestore => true
  | .mark | .readTelemetry => false

/-- The number of data intervals of an answer (R120, R129, R130). -/
def Operation.dataIntervals : Operation → Nat
  | .readTelemetry => 64
  | .mark | .pumpSwap | .pumpRestore => 16

end Sys2Proof.Machine
end

