-- ==== Sys2Proof/Decode.lean ====
section
/-! DEFINITION. Decoding of command words and of the function word of a client channel. -/

namespace Sys2Proof

/-- The command that a word spells by the table's bits. No row of spec/opcode_table.json gives any bits, so no word
spells a command (log 29). -/
def decodeTableWord (_nbits _w : Nat) : Option Instr := none

/-- The table of request codes (R185). -/
def decodeRequest (code : Nat) : Option Request :=
  match code with
  | 0x01 => some .claim
  | 0x02 => some .claimIfClean
  | 0x03 => some .check
  | 0x04 => some .takeover
  | 0x05 => some .release
  | 0x08 => some .writeLineSetup
  | 0x09 => some .writeHousing
  | 0x0A => some .writeTemplate
  | 0x0B => some .writeWatchPoint
  | 0x0C => some .enableWatchPoints
  | 0x0D => some .disableWatchPoints
  | 0x0E => some .writeBaseline
  | 0x0F => some .writePairPolicy
  | 0x10 => some .setQuarantine
  | 0x11 => some .clearQuarantine
  | 0x12 => some .bindQueue
  | 0x18 => some .startSweep
  | 0x19 => some .sendCommand
  | 0x1A => some .cancelWork
  | 0x1B => some .resetLine
  | 0x20 => some .readQueue
  | 0x21 => some .readWatchPoints
  | 0x22 => some .readHousing
  | 0x23 => some .readVerdict
  | 0x24 => some .readClaims
  | 0x25 => some .readLineState
  | 0x26 => some .readTime
  | 0x27 => some .readAlarms
  | 0x28 => some .ackAlarm
  | 0x3F => some .clearPort
  | _ => none

/-- The code of a request (R185). -/
def Request.code : Request → Nat
  | .claim => 0x01
  | .claimIfClean => 0x02
  | .check => 0x03
  | .takeover => 0x04
  | .release => 0x05
  | .writeLineSetup => 0x08
  | .writeHousing => 0x09
  | .writeTemplate => 0x0A
  | .writeWatchPoint => 0x0B
  | .enableWatchPoints => 0x0C
  | .disableWatchPoints => 0x0D
  | .writeBaseline => 0x0E
  | .writePairPolicy => 0x0F
  | .setQuarantine => 0x10
  | .clearQuarantine => 0x11
  | .bindQueue => 0x12
  | .startSweep => 0x18
  | .sendCommand => 0x19
  | .cancelWork => 0x1A
  | .resetLine => 0x1B
  | .readQueue => 0x20
  | .readWatchPoints => 0x21
  | .readHousing => 0x22
  | .readVerdict => 0x23
  | .readClaims => 0x24
  | .readLineState => 0x25
  | .readTime => 0x26
  | .readAlarms => 0x27
  | .ackAlarm => 0x28
  | .clearPort => 0x3F

/-- Bits 15..10 of a function word (R185). -/
def functionCode (w : Word) : Nat := w.toNat / 1024

/-- Bits 2..0 of a function word: the pair, or the resource of a claim request (R185). Bits 9..3 are ignored. -/
def functionSelector (w : Word) : Pair := Fin.ofNat 8 w.toNat

/-- The function word of a request with a selector in its low bits (R185). -/
def encodeFunctionWord (r : Request) (sel : Pair) : Word := BitVec.ofNat 16 (r.code * 1024 + sel.val)

/-- The number of parameter words of a request (R168). -/
def Request.parameterCount : Request → Nat
  | .claim | .claimIfClean | .check | .takeover => 1
  | .release => 0
  | .writeLineSetup => 4
  | .writeHousing => 8
  | .writeTemplate => 3
  | .writeWatchPoint => 4
  | .enableWatchPoints | .disableWatchPoints => 2
  | .writeBaseline => 2
  | .writePairPolicy => 14
  | .setQuarantine => 2
  | .clearQuarantine => 1
  | .bindQueue => 3
  | .startSweep => 2
  | .sendCommand => 3
  | .cancelWork => 1
  | .resetLine => 0
  | .readQueue | .readWatchPoints | .readHousing => 2
  | .readVerdict | .readClaims | .readLineState | .readTime | .readAlarms => 0
  | .ackAlarm => 1
  | .clearPort => 0

end Sys2Proof
end

