-- ==== Sys2Proof/Machine/Flags.lean ====
section
/-! DEFINITION. Status codes, the flags and counts of the reply header (R173, R187), and the shapes of answers. -/

namespace Sys2Proof.Machine

/-- Status codes (R187). -/
def Status.code : Status → Nat
  | .accepted => 0
  | .abort => 1
  | .notPermitted => 2
  | .notClaimed => 3
  | .outOfRange => 4
  | .shortParameters => 5
  | .unknownRequest => 6
  | .pairBusy => 7
  | .watchPointEnabled => 8
  | .templateInUse => 9
  | .duplicateAddress => 10
  | .lagOrder => 11
  | .thresholdOrder => 12
  | .queueFull => 13
  | .notBound => 14
  | .noSuchWork => 15
  | .tooLate => 16
  | .lineNotIdle => 17

/-- The two header words (R187). -/
def Reply.header (r : Reply) (discarded : Bool) : List Word :=
  [BitVec.ofNat 16 (r.status.code * 256 + discarded.toNat * 4 + r.clamped.toNat * 2 + r.overflow.toNat),
   BitVec.ofNat 16 (r.data.length * 256 + r.requested)]

/-- The words of a whole reply: header, then data (R173, R183). -/
def Reply.words (r : Reply) (discarded : Bool) : List Word := r.header discarded ++ r.data

/-- ACCEPTED with data words and no flag. -/
def Reply.ok (data : List Word) : Reply :=
  { status := .accepted, clamped := false, overflow := false, requested := 0, data := data }

/-- ACCEPTED, with CLAMPED when a value was clamped. -/
def Reply.okClamped (clamped : Bool) (data : List Word) : Reply :=
  { status := .accepted, clamped := clamped, overflow := false, requested := 0, data := data }

/-- A status code and no data words (R173). -/
def Reply.refusal (st : Status) : Reply :=
  { status := st, clamped := false, overflow := false, requested := 0, data := [] }

/-- A refused read that names a count still carries the words-requested count (R173, log 13). -/
def Reply.refusedRead (st : Status) (requested : Nat) : Reply :=
  { status := st, clamped := false, overflow := false, requested := requested, data := [] }

/-- The checks of a request in their order, each with the status code it answers; the first that fails decides
(R17). -/
def firstFailure : List (Bool × Status) → Option Status
  | [] => none
  | c :: rest => if c.1 then some c.2 else firstFailure rest

end Sys2Proof.Machine
end

