-- ==== Sys2Proof/Machine/Levels.lean ====
section
/-! DEFINITION. The Level Arithmetic Unit: peak, level, normalised level, deviation; classification and tracking as
computations on numbers (sections 5.3 to 5.6). -/

namespace Sys2Proof.Machine

/-- The largest of the values seen and the place where it was first attained, given the best so far and the place of
the next value (R80). -/
def peakFrom (best : Int) (place : Nat) : Nat → List Int → Int × Nat
  | _, [] => (best, place)
  | i, v :: rest => if best < v then peakFrom v i (i + 1) rest else peakFrom best place (i + 1) rest

/-- The peak value V and the peak offset o of a segment's cell values (R80). -/
def peak : List Int → Int × Nat
  | [] => (0, 0)
  | v :: rest => peakFrom v 0 1 rest

/-- The level λ from V, the number of periods and L (R81). -/
def levelOf (v : Int) (periods len : Nat) : Nat :=
  if v ≤ 0 then 0
  else
    let q1 := v.toNat / periods
    if 134217728 ≤ q1 then 32767 else min 32767 (q1 * 16 / len)

/-- The normalised level ν (R82, R84). -/
def normOf (normalise : Bool) (level refLevel : Nat) : Nat :=
  if normalise then min 65535 (level * 4096 / refLevel) else level

/-- The deviation δ against a valid baseline; absent without one (R85). -/
def deviationOf (norm : Nat) (baseline : Option Nat) : Option Nat :=
  baseline.map fun b => min 4095 (norm * 1024 / b)

/-- The fresh condition of a housing watch point (R86). -/
def classify (p : Policy) (level : Nat) (deviation : Option Nat) : Condition :=
  if level < p.levelMin then .absent
  else
    match deviation with
    | none => .unreferenced
    | some d =>
      if p.watchThreshold ≤ d then .normal
      else if p.degradeThreshold ≤ d then .watch
      else if p.floorThreshold ≤ d then .low
      else .absent

/-- The edge marker of a peak offset (R88). -/
def edgeOf (offset width : Nat) : Bool := decide (offset = 0) || decide (offset + 1 = width)

/-- An integer clamped to a range. -/
def clampInt (lo hi x : Int) : Int := max lo (min hi x)

/-- The moved centre lag of tracking (R89): raw shift, shift within the track limit, and the clamp to the allowed drift
and the legal lags. -/
def movedLag (t : Template) (nominal len centre offset : Nat) : Nat :=
  let half : Int := ((t.width / 2 : Nat) : Int)
  let shift := clampInt (-(t.trackLimit : Int)) t.trackLimit ((offset : Int) - half)
  (clampInt (max 32 ((nominal : Int) - half)) (min ((len : Int) - 33) ((nominal : Int) + half))
    ((centre : Int) + shift)).toNat

end Sys2Proof.Machine
end

