-- ==== Sys2Proof/Machine/Memory.lean ====
section
/-! DEFINITION. Indexed memories in canonical form: reading, writing, clearing a range, writing a list of places. `d` gives
the reset contents, which is what an unlisted index reads as. -/

namespace Sys2Proof.Machine

variable {α : Type}

/-- What index `k` holds. -/
def Memory.read (d : Nat → α) : Memory α → Nat → α
  | [], k => d k
  | e :: rest, k => if k = e.1 then e.2 else Memory.read d rest k

/-- Index `k` back at its reset contents. -/
def Memory.erase (m : Memory α) (k : Nat) : Memory α := m.filter fun e => decide (e.1 ≠ k)

/-- List index `k` before the first larger one. -/
def Memory.insert : Memory α → Nat → α → Memory α
  | [], k, v => [(k, v)]
  | e :: rest, k, v => if k < e.1 then (k, v) :: e :: rest else e :: Memory.insert rest k v

/-- Index `k` written with `v`; reset contents are not listed. -/
def Memory.write [DecidableEq α] (d : Nat → α) (m : Memory α) (k : Nat) (v : α) : Memory α :=
  if v = d k then Memory.erase m k else Memory.insert (Memory.erase m k) k v

/-- Every index of a list rewritten from what it holds. -/
def Memory.update [DecidableEq α] (d : Nat → α) (f : Nat → α → α) : Memory α → List Nat → Memory α
  | m, [] => m
  | m, k :: ks => Memory.update d f (Memory.write d m k (f k (Memory.read d m k))) ks

/-- `n` indices from `first` on back at their reset contents. -/
def Memory.clearRange (m : Memory α) (first n : Nat) : Memory α :=
  m.filter fun e => decide (¬ (first ≤ e.1 ∧ e.1 < first + n))

/-- The canonical form: indices strictly rising, no entry equal to the reset contents. -/
def Memory.wf [DecidableEq α] (d : Nat → α) (m : Memory α) : Bool :=
  decide (m.Pairwise fun a b => a.1 < b.1) && m.all fun e => decide (e.2 ≠ d e.1)

end Sys2Proof.Machine
end

