-- ==== Sys2Proof/Machine/Operands.lean ====
section
/-! DEFINITION. Parameter words: what each encoded word stands for (R184, R186), and refusing or clamping numbers. -/

namespace Sys2Proof.Machine

/-- Parameter word `i` of a request as an unsigned number (R184). -/
def Handed.word (h : Handed) (i : Nat) : Nat := (h.params.getD i 0).toNat

/-- On/off and yes/no words (R186). -/
def onOff? (n : Nat) : Option Bool :=
  match n with
  | 0 => some false
  | 1 => some true
  | _ => none

/-- Report queue numbers (R186). -/
def queue? (n : Nat) : Option RQ :=
  match n with
  | 0 => some .rq0
  | 1 => some .rq1
  | 2 => some .rq2
  | 3 => some .rq3
  | _ => none

/-- Channel words of BIND_QUEUE: NONE or a channel (R157, R186). -/
def binding? (n : Nat) : Option (Option Channel) :=
  match n with
  | 0 => some none
  | 1 => some (some .ch0)
  | 2 => some (some .ch1)
  | 3 => some (some .ch2)
  | _ => none

/-- Bit order words (R186). -/
def bitOrder? (n : Nat) : Option BitOrder :=
  match n with
  | 0 => some .msbFirst
  | 1 => some .lsbFirst
  | _ => none

/-- Nibble order words (R186). -/
def nibbleOrder? (n : Nat) : Option NibbleOrder :=
  match n with
  | 0 => some .highFirst
  | 1 => some .lowFirst
  | _ => none

/-- Sweep kind words (R186). -/
def sweepKind? (n : Nat) : Option SweepKind :=
  match n with
  | 0 => some .monitor
  | 1 => some .baseline
  | _ => none

/-- Operation codes (R120, R186). -/
def operation? (n : Nat) : Option Operation :=
  match n with
  | 1 => some .mark
  | 2 => some .pumpSwap
  | 3 => some .pumpRestore
  | 4 => some .readTelemetry
  | _ => none

/-- The resource in the modifier of a claim request (R185). -/
def resource? (sel : Pair) : Option Resource :=
  match sel.val with
  | 0 => some .line
  | 1 => some .tables
  | _ => none

/-- A number below or above its range. -/
def outside (lo hi n : Nat) : Bool := decide (n < lo) || decide (hi < n)

/-- A number replaced by the nearest end of its range (00_scope.md, "Refusal and clamping"). -/
def clampTo (lo hi n : Nat) : Nat := if n < lo then lo else if hi < n then hi else n

end Sys2Proof.Machine
end

