-- ==== Sys2Proof/Machine/Scan.lean ====
section
/-! DEFINITION. The Localiser's scan as a computation on the items of the observed list (section 6.1). -/

namespace Sys2Proof.Machine

/-- An item of the observed list (R97). -/
structure Item where
  housing   : Nat
  condition : Condition
  deviation : Option Nat
deriving DecidableEq, Repr

/-- The conditions that make a watch point an item (R97). -/
def Condition.observed : Condition → Bool
  | .normal | .watch | .low | .absent => true
  | .unobserved | .unreferenced => false

/-- The part of the skip set that one quarantined housing with skip depth `depth` adds (R98). -/
def skipZone (items : List Item) (q depth : Nat) : List Nat :=
  q :: ((items.filter fun i => decide (q < i.housing) && decide (i.condition ≠ .absent)).take depth).map (·.housing)

/-- The skip set from the quarantined housings with their depths (R98). -/
def skipSet (items : List Item) (marks : List (Nat × Nat)) : List Nat :=
  marks.flatMap fun q => skipZone items q.1 q.2

/-- The lead of a scan (R99). -/
def leadOf (items : List Item) (skip : List Nat) : Option Item :=
  items.find? fun i => decide (i.housing ∉ skip) && decide (i.condition ≠ .normal)

/-- The items after a housing (R97). -/
def itemsAfter (items : List Item) (h : Nat) : List Item := items.filter fun i => decide (h < i.housing)

/-- The kind for an ABSENT lead, from the items after it (R100). -/
def darkKind (after : List Item) : FaultKind :=
  if after.all fun i => decide (i.condition = .absent) then .sectionOpen
  else
    match after with
    | [] => .sectionOpen
    | next :: _ => if next.condition = .absent then .unresolved else .loopbackFault

/-- Two deviations that differ by at most the tolerance (R101). -/
def within (tolerance : Nat) (a b : Nat) : Bool := decide (a - b ≤ tolerance) && decide (b - a ≤ tolerance)

/-- An item whose δ lies within the tolerance of the lead's (R101). -/
def uniformItem (tolerance lead : Nat) (i : Item) : Bool :=
  decide (i.condition ≠ .absent) &&
    match i.deviation with
    | none => false
    | some d => within tolerance d lead

/-- The kind for a WATCH or LOW lead (R101). -/
def dimKind (p : Policy) (lead : Item) (after : List Item) : FaultKind :=
  if (after.take p.recoveryDepth).any fun i => decide (i.condition = .normal) then .amplifierDegraded
  else
    match lead.deviation with
    | none => .unresolved
    | some d => if after.all (uniformItem p.tolerance d) then .sectionExcessLoss else .unresolved

/-- The candidate of a scan; NONE is `none` (R96, R99, R100, R101). -/
def candidateOf (p : Policy) (items : List Item) (marks : List (Nat × Nat)) : Option Verdict :=
  match leadOf items (skipSet items marks) with
  | none => none
  | some f =>
    some { kind := if f.condition = .absent then darkKind (itemsAfter items f.housing)
                   else dimKind p f (itemsAfter items f.housing)
           lead := f.housing }

end Sys2Proof.Machine
end

