-- ==== Sys2Proof/Machine/Ops.lean ====
section
/-! DEFINITION. The named operations over the state: the tables with their reset contents, posting of records, claims,
answers, and the frame every command shares. -/

namespace Sys2Proof.Machine

/-! ### Small families -/

def PerChannel.get {α : Type} (x : PerChannel α) : Channel → α
  | .ch0 => x.ch0
  | .ch1 => x.ch1
  | .ch2 => x.ch2

def PerChannel.set {α : Type} (x : PerChannel α) (c : Channel) (v : α) : PerChannel α :=
  match c with
  | .ch0 => { x with ch0 := v }
  | .ch1 => { x with ch1 := v }
  | .ch2 => { x with ch2 := v }

def PerQueue.get {α : Type} (x : PerQueue α) : RQ → α
  | .rq0 => x.rq0
  | .rq1 => x.rq1
  | .rq2 => x.rq2
  | .rq3 => x.rq3

def PerQueue.set {α : Type} (x : PerQueue α) (q : RQ) (v : α) : PerQueue α :=
  match q with
  | .rq0 => { x with rq0 := v }
  | .rq1 => { x with rq1 := v }
  | .rq2 => { x with rq2 := v }
  | .rq3 => { x with rq3 := v }

/-- The eight pairs in order. -/
def allPairs : List Pair := [0, 1, 2, 3, 4, 5, 6, 7]

/-! ### Tables and their reset contents -/

/-- Reset contents of the Window Templates (R22). -/
def templateDefault (t : Nat) : Template :=
  match t with
  | 0 => ⟨8, 2⟩
  | 1 => ⟨16, 4⟩
  | 2 => ⟨32, 8⟩
  | _ => ⟨64, 16⟩

/-- Parked contents of a housing (R18). -/
def housingDefault (h : Nat) : HousingEntry :=
  { present := false, address := 0, lag := 32 + h, bitOrder := .msbFirst, nibbleOrder := .highFirst
    longCapable := false, swapCapable := false }

/-- Where the record (pair, housing) stands in the Watch Point Table (section 2.4). -/
def wpKey (p : Pair) (h : Nat) : Nat := p.val * 193 + h

/-- Reset contents of the Watch Point Table (R24, R25). -/
def wpDefault (k : Nat) : WatchPoint :=
  { template := 1, queue := .rq3, tracking := false, enabled := false
    centre := if k % 193 = 0 then 64 else 32 + k % 193
    baseline := none, level := none, norm := none, deviation := none, condition := .unobserved, offset := 0
    edge := false, saturated := false, pump := .unknown, quarantine := none, updated := 0 }

/-- Reset contents of a policy record (R32). -/
def policyDefault (_ : Nat) : Policy :=
  { watchThreshold := 900, degradeThreshold := 700, floorThreshold := 256, levelMin := 16, normalise := true
    refFloor := 32, confirmCount := 3, recoveryDepth := 2, tolerance := 64, clipLimit := 32, autoIsolate := false
    verdictQueue := .rq3, responsePeriods := 4, busyLimit := 60 }

/-- Reset contents of a Verdict Register (R102). -/
def verdictDefault (_ : Nat) : VerdictRegister :=
  { candidate := none, streak := 0, confirmed := none, raised := 0, status := .notApplicable, postSwap := 0 }

/-- Reset contents of a cell (R59). -/
def cellDefault (_ : Nat) : Cell := ⟨0, false⟩

/-- Reset contents of the chip history: +1, a choice without effect (R62, log 16). -/
def chipDefault (_ : Nat) : Bool := true

def State.template (s : State) (t : Nat) : Template := Memory.read templateDefault s.templates t

def State.housing (s : State) (h : Nat) : HousingEntry := Memory.read housingDefault s.housings h

def State.setHousing (s : State) (h : Nat) (e : HousingEntry) : State :=
  { s with housings := Memory.write housingDefault s.housings h e }

def State.wp (s : State) (p : Pair) (h : Nat) : WatchPoint := Memory.read wpDefault s.watchPoints (wpKey p h)

def State.setWp (s : State) (p : Pair) (h : Nat) (w : WatchPoint) : State :=
  { s with watchPoints := Memory.write wpDefault s.watchPoints (wpKey p h) w }

def State.policy (s : State) (p : Pair) : Policy := Memory.read policyDefault s.policies p.val

def State.setPolicy (s : State) (p : Pair) (v : Policy) : State :=
  { s with policies := Memory.write policyDefault s.policies p.val v }

def State.verdict (s : State) (p : Pair) : VerdictRegister := Memory.read verdictDefault s.verdicts p.val

def State.setVerdict (s : State) (p : Pair) (v : VerdictRegister) : State :=
  { s with verdicts := Memory.write verdictDefault s.verdicts p.val v }

/-- The isolation status of a pair's register set (section 6.4). -/
def State.setStatus (s : State) (p : Pair) (st : IsolationStatus) : State :=
  s.setVerdict p { s.verdict p with status := st }

/-- The sequence length L = 2^m - 1 (R1). -/
def seqLength (m : Nat) : Nat := 2 ^ m - 1

/-- L of the Line Setup (R1). -/
def State.len (s : State) : Nat := seqLength s.lineSetup.m

/-- A housing counts as present: housing 0 always does (R18). -/
def State.present (s : State) (h : Nat) : Bool := decide (h = 0) || (s.housing h).present

/-- The nominal lag of a housing, the reference lag for housing 0 (R18). -/
def State.nominalLag (s : State) (h : Nat) : Nat := if h = 0 then s.lineSetup.refLag else (s.housing h).lag

/-- Housings 0 to 192 in order. -/
def allHousings : List Nat := List.range Config.housingCount

/-- Housings 1 to 192 in order. -/
def repeaters : List Nat := (List.range 192).map (· + 1)

/-- The enabled watch points of a pair, in housing order (R46, R60). -/
def State.enabledHousings (s : State) (p : Pair) : List Nat := allHousings.filter fun h => (s.wp p h).enabled

/-! ### Straps, claims and the busy pair -/

/-- A pair below the strapped number of fitted pairs, which is v + 1 (R178). -/
def State.fitted (s : State) (p : Pair) : Bool := decide (p.val ≤ s.straps.pairsFitted.toNat)

/-- The claim record of a resource (R141). -/
def State.claim (s : State) : Resource → Claim
  | .line => s.lineClaim
  | .tables => s.tablesClaim

def State.setClaim (s : State) (r : Resource) (c : Claim) : State :=
  match r with
  | .line => { s with lineClaim := c }
  | .tables => { s with tablesClaim := c }

/-- The caller owns the resource (R151). -/
def State.holds (s : State) (ch : Channel) (r : Resource) : Bool := decide ((s.claim r).owner = some ch)

/-- The busy pair (R45). -/
def State.busyPair (s : State) : Option Pair := s.current.map (·.work.pair)

/-- A request that names the busy pair (R29). -/
def State.busy (s : State) (p : Pair) : Bool := decide (s.busyPair = some p)

/-- Automatic isolation is permitted for a pair (section 6.3), by a given policy. -/
def State.autoPermitted (s : State) (p : Policy) : Bool := s.straps.autoPermit && p.autoIsolate

/-- Any item of the alarm summary is set (R145, R153). -/
def Alarms.unclean (a : Alarms) : Bool := decide (a.verdict ≠ 0) || a.selectorFault || a.receiverLos

/-! ### Posting of records -/

/-- A record joins its queue, or is discarded with the overflow marker set when the queue is full (R160). -/
def ReportQueue.accept (q : ReportQueue) (r : Record) : ReportQueue :=
  if q.records.length < Config.reportQueueSize then { q with records := q.records ++ [r] }
  else { q with overflow := true }

/-- A record posted to a queue with the present epoch time (R16, R158, R160). -/
def State.post (s : State) (q : RQ) (b : RecordBody) : State :=
  { s with queues := PerQueue.set s.queues q ((PerQueue.get s.queues q).accept ⟨b, s.epoch⟩) }

/-- A record posted to a channel's home queue as the map stands (R159). -/
def State.postHome (s : State) (ch : Channel) (b : RecordBody) : State := s.post (PerChannel.get s.homes ch) b

/-- A record posted to a pair's verdict queue as the policy stands (R117, R159). -/
def State.postVerdict (s : State) (p : Pair) (b : RecordBody) : State := s.post (s.policy p).verdictQueue b

/-- The record of a piece of work posted where its origin says: home queue, or verdict queue for AUTO (R49, R52). -/
def State.postWork (s : State) (w : Work) (b : RecordBody) : State :=
  match w.origin with
  | .channel ch => s.postHome ch b
  | .auto => s.postVerdict w.pair b

/-- Set the SELECTOR_FAULT item (R153). -/
def State.alarmSelector (s : State) : State := { s with alarms := { s.alarms with selectorFault := true } }

/-- Set the RECEIVER_LOS item (R153). -/
def State.alarmLos (s : State) : State := { s with alarms := { s.alarms with receiverLos := true } }

/-- Set the VERDICT item of a pair (R118, R153). -/
def State.alarmVerdict (s : State) (p : Pair) : State :=
  { s with alarms := { s.alarms with verdict := s.alarms.verdict ||| BitVec.twoPow 8 p.val } }

/-! ### Quarantine -/

/-- A quarantine mark set on (p, h) with its updated time and QUARANTINE record, when it changes the mark
(R36, R108). -/
def State.markQuarantine (s : State) (p : Pair) (h depth : Nat) (origin : Origin) : State :=
  if (s.wp p h).quarantine = some depth then s
  else
    (s.setWp p h { s.wp p h with quarantine := some depth, updated := s.epoch }).postVerdict p
      (.quarantine p h true depth origin)

/-- A quarantine mark removed with its updated time and QUARANTINE record, when it was on (R37). -/
def State.unmarkQuarantine (s : State) (p : Pair) (h : Nat) (origin : Origin) : State :=
  if (s.wp p h).quarantine = none then s
  else
    (s.setWp p h { s.wp p h with quarantine := none, updated := s.epoch }).postVerdict p
      (.quarantine p h false 0 origin)

/-! ### Isolation Queue and work tags -/

/-- Withdraw the queued isolation entries that match, with no record (R42). -/
def State.withdraw (s : State) (p : Work → Bool) : State :=
  { s with isolationQueue := s.isolationQueue.filter fun w => !p w }

/-- The queued entry of a pair. -/
def Work.ofPair (p : Pair) (w : Work) : Bool := decide (w.pair = p)

/-- The housing of a command; 0 for a sweep. -/
def Work.housing (w : Work) : Nat :=
  match w.kind with
  | .sweep .. => 0
  | .command h _ _ => h

/-- The queued entry of a pair and housing (R36, R37). -/
def Work.ofTarget (p : Pair) (h : Nat) (w : Work) : Bool := decide (w.pair = p) && decide (w.housing = h)

/-- The tags held (R43). -/
def State.heldTags (s : State) : List (BitVec 8) :=
  s.workQueue.map (·.tag) ++ s.isolationQueue.map (·.tag) ++ (s.current.map (·.work.tag)).toList

/-- The first value from `t` on that no work holds, returning from 255 to 0 (R43). -/
def freeTag (held : List (BitVec 8)) : Nat → BitVec 8 → BitVec 8
  | 0, t => t
  | n + 1, t => if t ∈ held then freeTag held n (t + 1) else t

/-- The tag the next enqueue receives (R43). -/
def State.nextTag (s : State) : BitVec 8 := freeTag s.heldTags 256 s.tagCounter

/-- An entry joins the tail of the Work Queue with a new tag (R38, R43). -/
def State.enqueue (s : State) (origin : Origin) (p : Pair) (kind : WorkKind) : State :=
  { s with workQueue := s.workQueue ++ [⟨s.nextTag, origin, p, kind⟩], tagCounter := s.nextTag + 1 }

/-- The Localiser places a PUMP_SWAP with 2 attempts, after withdrawing any entry of the pair (R41, R43). -/
def State.placeIsolation (s : State) (p : Pair) (h : Nat) : State :=
  let s := s.withdraw (Work.ofPair p)
  { s with isolationQueue := s.isolationQueue ++ [⟨s.nextTag, .auto, p, .command h .pumpSwap 2⟩]
           tagCounter := s.nextTag + 1 }

/-! ### Answers -/

/-- A block's answer to a request it has taken (R171). -/
def State.answer (s : State) (h : Handed) (r : Reply) : State :=
  { s with answers := s.answers ++ [⟨h.channel, h.live, r⟩] }

/-- The request answered by its first failing check, or carried out (R17). -/
def State.decided (s : State) (h : Handed) (checks : List (Bool × Status)) (carriedOut : State) : State :=
  match firstFailure checks with
  | some st => s.answer h (.refusal st)
  | none => carriedOut

/-- A request handed over by a channel. -/
def Handed.is (ch : Channel) (r : Request) (h : Handed) : Bool := decide (h.channel = ch) && decide (h.request = r)

/-- A request removed from those handed over. -/
def State.taken (s : State) (ch : Channel) (r : Request) : State :=
  { s with handed := s.handed.eraseP (Handed.is ch r) }

/-! ### The frame every command shares -/

/-- While the reset input is asserted every block is held at its reset values (R14, R58); otherwise the step takes
effect. -/
def live (s : State) (effect : State → State) : Host.Outcome State Fault Refusal :=
  .next (if s.resetAsserted then s else effect s)

/-- A block takes the oldest request of that name that the channel has handed over (R171); with none handed over there
is no such event and nothing changes (log 2, log 4). -/
def serve (s : State) (ch : Channel) (r : Request) (carryOut : Handed → State → State) :
    Host.Outcome State Fault Refusal :=
  live s fun s =>
    match s.handed.find? (Handed.is ch r) with
    | none => s
    | some h => carryOut h (s.taken ch r)

end Sys2Proof.Machine
end

