-- ==== Sys2Proof/Machine/Line.lean ====
section
/-! DEFINITION. Shared operations of line work: the probe, the selector, the start of work, and the ways it ends
(chapters 1, 3, 4, 7). -/

namespace Sys2Proof.Machine

/-! ### Probe Generator -/

/-- Tap stages of the sequence generator (R4). -/
def tapStages (m : Nat) : List Nat :=
  match m with
  | 11 => [11, 9]
  | 12 => [12, 11, 10, 4]
  | 13 => [13, 12, 11, 8]
  | 14 => [14, 13, 12, 2]
  | _ => [15, 14]

/-- Stage k of the generator (R4). -/
def Generator.stage (g : Generator) (k : Nat) : Bool := g.stages.getLsbD (k - 1)

/-- The chip of the current instant: true is +1 (R4). -/
def Generator.chip (g : Generator) : Bool := g.stage g.m

/-- The feedback bit (R4). -/
def Generator.feedback (g : Generator) : Bool := (tapStages g.m).foldl (fun b t => b != g.stage t) false

/-- One shift at the end of a chip instant (R4). -/
def Generator.shift (g : Generator) : Generator :=
  { g with stages := (g.stages <<< 1 ||| BitVec.ofNat 15 g.feedback.toNat) &&& BitVec.ofNat 15 (seqLength g.m) }

/-- The generator loaded with every stage at 1, and the chip timer at instant 0 (R4, R5). -/
def State.loadProbe (s : State) : State :=
  { s with generator := { m := s.lineSetup.m, k := s.lineSetup.k, stages := BitVec.ofNat 15 (seqLength s.lineSetup.m) }
           chipTimer := some ⟨0, 0⟩ }

/-! ### The end of line work -/

/-- The return to IDLE: no current work, allocation released, chip and settle timers stopped, Command Unit FREE
(R44, R71, R72, R119, R135). -/
def State.idle (s : State) : State :=
  { s with current := none, allocation := [], chipTimer := none, settleTimer := none, cmu := .reset
           intervals := [], evaluation := none }

/-- A sweep ends with its SWEEP_DONE record (R49, R50). -/
def State.sweepEnds (s : State) (w : Work) (kind : SweepKind) (o : WorkOutcome) (evaluated saturated : Nat) : State :=
  (s.postWork w (.sweepDone w.tag w.pair kind o evaluated saturated s.clipCount)).idle

/-- A frame of the current command has been fully transmitted (R55). -/
def frameSent (state : LineState) (attempt : Nat) : Bool :=
  match state with
  | .responseWait | .busyWait | .responseRx => true
  | .commandTx => decide (2 ≤ attempt)
  | .startChecks | .select | .settle | .integrate | .evaluate => false

/-- The pump state a command writes at its end; `none` leaves it as it was (R136). -/
def pumpAfter (op : Operation) (o : WorkOutcome) (state : LineState) (attempt : Nat) (status : Option Word) :
    Option PumpState :=
  if op.busy then
    match o with
    | .done | .refusedByRepeater | .repeaterFault => status.map statusPump
    | .mismatch | .noResponse | .busyTimeout | .receiverLos => some .unknown
    | .selectorFault => if state = .select then none else some .unknown
    | .cancelled => if frameSent state attempt then some .unknown else none
    | .notVisible | .unsupported | .completed | .degradedInput | .referenceLost | .cellBudget => none
  else none

/-- The pump state of a watch point written, or left as it was (R135). -/
def State.writePump (s : State) (p : Pair) (h : Nat) : Option PumpState → State
  | none => s
  | some v => s.setWp p h { s.wp p h with pump := v }

/-- The Localiser's answer to the outcome of an automatic command (R110, R111). -/
def State.autoOutcome (s : State) (p : Pair) (h : Nat) (o : WorkOutcome) (status : Option Word) : State :=
  if o = .cancelled then s.setStatus p .cancelled
  else if o = .done ∧ status.map statusPump = some .secondary then s.setStatus p .swapped
  else (s.markQuarantine p h (s.policy p).recoveryDepth .auto).setStatus p .quarantined

/-- A command ends: pump state, COMMAND_DONE record, report to the Localiser, return to IDLE (R52, R135, R139). -/
def State.commandEnds (s : State) (c : Current) (h : Nat) (op : Operation) (o : WorkOutcome) (status : Option Word)
    (telemetry : Option Telemetry) : State :=
  let w := c.work
  let s1 := s.writePump w.pair h (pumpAfter op o c.state s.cmu.attempt status)
  let s2 := s1.postWork w (.commandDone w.tag w.origin w.pair h op o s.cmu.attempt status telemetry)
  let s3 := if w.origin = .auto then s2.autoOutcome w.pair h o status else s2
  s3.idle

/-- The current work ends with an outcome that carries no evaluation and no status word (R49, R52, R135). -/
def State.endWork (s : State) (o : WorkOutcome) : State :=
  match s.current with
  | none => s
  | some c =>
    match c.work.kind with
    | .sweep kind _ => s.sweepEnds c.work kind o 0 0
    | .command h op _ => s.commandEnds c h op o none none

/-- Receiver loss of signal ends the current work (R13). -/
def State.losEnds (s : State) : State := s.alarmLos.endWork .receiverLos

/-- A selector fault ends the current work: position and requested position UNKNOWN, the alarm item set (R8, R9). -/
def State.selectorFaultEnds (s : State) : State :=
  ({ s with position := none, requested := none, settleTimer := none } : State).alarmSelector.endWork .selectorFault

/-- The current work is in a state. -/
def State.inState (s : State) (st : LineState) : Bool := decide (s.current.map (·.state) = some st)

/-- The settle timer has run out: the Epoch Counter has advanced by the settle limit (R8, log 23). -/
def State.settleExpired (s : State) : Bool :=
  match s.settleTimer with
  | none => false
  | some t => decide (t.limit ≤ (s.epoch - t.start).toNat)

/-- The expiry of the settle timer taken, if it is due (R8). -/
def State.settleEnds (s : State) : State :=
  if s.inState .select && s.settleExpired then s.selectorFaultEnds else s

/-- The current work is aborted as a cancel in its state does (R54, R55); a sweep in EVALUATE, as RESET_LINE does
(R56). -/
def State.abort (s : State) (c : Current) : State :=
  match c.state with
  | .select => ({ s with position := none, settleTimer := none } : State).endWork .cancelled
  | .evaluate =>
    match c.work.kind, s.evaluation with
    | .sweep kind _, some e => s.sweepEnds c.work kind .cancelled e.evaluated e.saturated
    | _, _ => s.endWork .cancelled
  | .startChecks | .settle | .integrate | .commandTx | .responseWait | .busyWait | .responseRx =>
    s.endWork .cancelled

/-- A queued entry's CANCELLED record (R53). -/
def State.postCancelled (s : State) (w : Work) : State :=
  match w.kind with
  | .sweep kind _ => s.postWork w (.sweepDone w.tag w.pair kind .cancelled 0 0 0)
  | .command h op _ => s.postWork w (.commandDone w.tag w.origin w.pair h op .cancelled 0 none none)

/-- The CANCELLED records of a list of entries, in order (R56, R57). -/
def State.postCancelledAll : State → List Work → State
  | s, [] => s
  | s, w :: rest => State.postCancelledAll (s.postCancelled w) rest

/-! ### Into the line -/

/-- A sweep enters SETTLE; loss of signal at entry ends it at once (R48, R73). -/
def State.enterSettle (s : State) (c : Current) : State :=
  let s := { s.loadProbe with current := some { c with state := .settle } }
  if s.losInput then s.losEnds else s

/-- A command enters COMMAND_TX for an attempt (R51, R125); loss of signal at entry ends it (R13). The interval counter, the
start-search count and the lit run, which R125 does not name, are 0 and clear until interval 1 opens (log 33). -/
def State.enterTx (s : State) (c : Current) : State :=
  let s :=
    { s.loadProbe with
      current := some { c with state := .commandTx }
      cmu := { s.cmu with phase := .frame, bit := 1, interval := 0, startCount := 0, litRun := false, collector := []
                          attempt := s.cmu.attempt + 1, status := none, telemetry := none }
      intervals := [] }
  if s.losInput then s.losEnds else s

/-- Work enters the line once its pair is selected (R48, R51). -/
def State.enterLine (s : State) (c : Current) : State :=
  match c.work.kind with
  | .sweep .. => s.enterSettle c
  | .command .. => s.enterTx c

/-- A confirm: the settle timer stops, the position is set, and the work enters the line (R8). -/
def State.confirmed (s : State) (c : Current) : State :=
  ({ s with settleTimer := none, position := some c.work.pair } : State).enterLine c

/-- Selection (R48, R51): past SELECT when the position is the work's pair; otherwise a request is made (R8), and when
the confirm input already shows the pair the confirm arrives at once (log 6). -/
def State.selection (s : State) (c : Current) : State :=
  if s.position = some c.work.pair then s.enterLine c
  else
    let s := { s with requested := some c.work.pair, settleTimer := some ⟨s.epoch, s.lineSetup.settle⟩
                      current := some { c with state := .select } }
    if s.confirmInput = some c.work.pair then s.confirmed c else s

/-! ### Start checks and allocation -/

/-- The width of a watch point's window (R22). -/
def State.widthOf (s : State) (p : Pair) (h : Nat) : Nat := (s.template (s.wp p h).template).width

/-- The sum of the cell budget check (R46). -/
def State.cellSum (s : State) (p : Pair) : Nat := ((s.enabledHousings p).map (s.widthOf p)).sum

/-- The segments of a list of housings, the first at cell `first` (R60). -/
def State.segments (s : State) (p : Pair) : Nat → List Nat → List Segment
  | _, [] => []
  | first, h :: rest => ⟨h, s.widthOf p h, (s.wp p h).centre, first⟩ :: s.segments p (first + s.widthOf p h) rest

/-- Every cell of a list of segments set to 0 with its marker cleared (R60, R127, log 18). -/
def clearSegments : Memory Cell → List Segment → Memory Cell
  | m, [] => m
  | m, g :: rest => clearSegments (Memory.clearRange m g.first g.width) rest

/-- An allocation built with its cells at 0 (R60, R122). -/
def State.allocate (s : State) (segs : List Segment) : State :=
  { s with allocation := segs, cells := clearSegments s.cells segs }

/-- The start checks of a sweep (R46), then allocation (R60) and selection (R48). -/
def State.startSweepChecks (s : State) (c : Current) (kind : SweepKind) : State :=
  let p := c.work.pair
  if Config.cellCount < s.cellSum p then s.sweepEnds c.work kind .cellBudget 0 0
  else if (s.policy p).normalise && !(s.wp p 0).enabled then s.sweepEnds c.work kind .referenceLost 0 0
  else (s.allocate (s.segments p 0 (s.enabledHousings p))).selection c

/-- The housing lacks the capability an operation needs (R120, R121). -/
def HousingEntry.unsupported (e : HousingEntry) (op : Operation) : Bool :=
  match op with
  | .mark => false
  | .pumpSwap | .pumpRestore => !e.swapCapable
  | .readTelemetry => !e.longCapable

/-- The watch point cannot be seen at (p, h) (R121, steps 1 and 2). -/
def State.notVisible (s : State) (p : Pair) (h : Nat) : Bool :=
  decide (h = 0) || !(s.housing h).present || !(s.wp p h).enabled ||
    match (s.wp p h).level with
    | none => true
    | some level => decide (level < (s.policy p).levelMin)

/-- The values a command captures when its checks pass (R122, R123, R124). -/
def State.capture (s : State) (p : Pair) (h : Nat) (op : Operation) (attempts : Nat) : Captured :=
  let e := s.housing h
  let level := orZero (s.wp p h).level
  { address := e.address, bitOrder := e.bitOrder, nibbleOrder := e.nibbleOrder
    levelOn := level, threshold := level / 2
    periods := (s.policy p).responsePeriods, busyLimit := (s.policy p).busyLimit, attempts := attempts
    sequence := transmission e.bitOrder e.nibbleOrder (frameOf e.address p.val op.code) }

/-- The start checks of a command (R121), then capture, its segment (R122) and selection (R51). -/
def State.startCommandChecks (s : State) (c : Current) (h : Nat) (op : Operation) (attempts : Nat) : State :=
  let p := c.work.pair
  if s.notVisible p h then s.commandEnds c h op .notVisible none none
  else if (s.housing h).unsupported op then s.commandEnds c h op .unsupported none none
  else
    let s := { s with cmu := { s.cmu with captured := some (s.capture p h op attempts) } }
    ({ s with allocation := [⟨h, s.widthOf p h, (s.wp p h).centre, 0⟩] } : State).selection c

/-- The start checks of the current work (R46, R47). -/
def State.startChecks (s : State) (c : Current) : State :=
  match c.work.kind with
  | .sweep kind _ => s.startSweepChecks c kind
  | .command h op attempts => s.startCommandChecks c h op attempts

/-- Work becomes current in START_CHECKS (R44, R45): the clip count is cleared for a sweep (R12), the Command Unit enters
CHECK for a command (R119), and an automatic entry is reported to the Localiser (R109). -/
def State.begin (s : State) (w : Work) : State :=
  let s := { s with current := some ⟨w, .startChecks, s.len⟩ }
  let s := if w.origin = .auto then s.setStatus w.pair .inFlight else s
  match w.kind with
  | .sweep .. => { s with clipCount := 0 }
  | .command .. => { s with cmu := { CommandUnit.reset with phase := .checking } }

/-- The entry the arbiter takes, with the state it leaves the queues in (R44). -/
def State.nextWork (s : State) : Option (Work × State) :=
  match s.isolationQueue, s.workQueue with
  | w :: rest, _ => some (w, { s with isolationQueue := rest })
  | [], w :: rest => some (w, { s with workQueue := rest })
  | [], [] => none

/-! ### The confirm input -/

/-- The loss of position (R9). -/
def State.positionLost (s : State) : State :=
  match s.current with
  | none => { s with position := none }
  | some c =>
    match c.state with
    | .startChecks | .evaluate => { s with position := none }
    | .select => s
    | .settle | .integrate | .commandTx | .responseWait | .busyWait | .responseRx => s.selectorFaultEnds

/-- The confirm input shows a code, or its flag is low (R8, R9, R10): in SELECT the requested code is a confirm and
anything else is not; outside SELECT anything but the requested code is a loss of position (log 7). -/
def State.confirmShows (s : State) (input : Option Pair) : State :=
  let s := { s with confirmInput := input }
  match s.requested with
  | none => s
  | some p =>
    match s.current with
    | some c =>
      if c.state = .select then (if input = some p then s.confirmed c else s)
      else if input = some p then s else s.positionLost
    | none => if input = some p then s else s.positionLost

end Sys2Proof.Machine
end

