-- ==== Sys2Proof/Machine/Reset.lean ====
section
/-! DEFINITION. Reset, the millisecond, and the presence lines (R14, R15, R58, R149, R175, R176, R178). -/

namespace Sys2Proof.Machine

/-- RESET_ASSERT: every block takes and holds its reset values; requests and answers on their way are gone (R14, R58,
R166, log 24). Input levels stay what they are. -/
def execResetAssert (s : State) : Host.Outcome State Fault Refusal :=
  .next (.initial true s.straps s.presenceLine s.losInput s.confirmInput s.pending)

/-- RESET_RELEASE: the straps are sampled, phases and presence views follow the presence lines (R142, R166, R178). With
the input not asserted there is nothing to release (log 2). -/
def execResetRelease (straps : Straps) (s : State) : Host.Outcome State Fault Refusal :=
  .next (if s.resetAsserted then .initial false straps s.presenceLine s.losInput s.confirmInput s.pending else s)

/-- EPOCH_TICK: one more millisecond, modulo 2^32 (R15); held at 0 while the reset input is asserted (R14). R8 takes the
expiry of the settle timer at the end of the millisecond at which it falls due, so one that still stands belongs before
the end of this next millisecond: it is taken first, at the count it fell due at (log 23). -/
def execEpochTick (s : State) : Host.Outcome State Fault Refusal :=
  live s fun s => { s.settleEnds with epoch := s.epoch + 1 }

/-- The unit of a channel. -/
def State.ccu (s : State) (ch : Channel) : ChannelUnit := PerChannel.get s.channels ch

def State.setCcu (s : State) (ch : Channel) (u : ChannelUnit) : State :=
  { s with channels := PerChannel.set s.channels ch u }

/-- What a channel has handed over answers to nobody any more: answers will be discarded, deferred reads are abandoned
(R30, R171). -/
def State.markStale (s : State) (ch : Channel) : State :=
  { s with
    handed := s.handed.map fun h => if h.channel = ch then { h with live := false } else h
    answers := s.answers.map fun a => if a.channel = ch then { a with live := false } else a
    deferred := s.deferred.filter fun h => decide (h.channel ≠ ch) }

/-- The requests a channel handed over before a presence loss: each now stands after the loss (R150, R175). -/
def State.markLost (s : State) (ch : Channel) : State :=
  { s with handed := s.handed.map fun h => if h.channel = ch then { h with lost := true } else h }

/-- One claim released by a presence loss, with its record (R149). -/
def State.releaseLost (s : State) (ch : Channel) (r : Resource) : State :=
  if s.holds ch r then
    (s.setClaim r { owner := none, tag := 0, since := s.epoch }).postHome ch (.claimLost r ch .presenceLost)
  else s

/-- The Claim and Alarm Unit's action on a presence loss (R149). -/
def State.lossAtClaims (s : State) (ch : Channel) : State :=
  (({ s with views := PerChannel.set s.views ch false } : State).releaseLost ch .line).releaseLost ch .tables

/-- An entry that a channel placed. -/
def Work.ofChannel (ch : Channel) (w : Work) : Bool := decide (w.origin = .channel ch)

/-- A presence loss taken by the Line Sequencer and the Claim and Alarm Unit (R57, R149): the channel's queued work is
cancelled, and `before` of its CANCELLED records join the home queue ahead of the CLAIM_LOST records (R161, log 9). -/
def State.lossTaken (s : State) (ch : Channel) (before : Nat) : State :=
  let gone := s.workQueue.filter (Work.ofChannel ch)
  let s := { s with workQueue := s.workQueue.filter fun w => !Work.ofChannel ch w }
  ((s.postCancelledAll (gone.take before)).lossAtClaims ch).postCancelledAll (gone.drop before)

/-- PRESENCE_LOSS (R175). While the reset input is asserted only the line changes (R166, log 22). -/
def execPresenceLoss (ch : Channel) (before : Nat) (s : State) : Host.Outcome State Fault Refusal :=
  let s := { s with presenceLine := PerChannel.set s.presenceLine ch false }
  live s fun s =>
    if (s.ccu ch).phase = .disconnected then s
    else (((s.markStale ch).markLost ch).setCcu ch (.reset false)).lossTaken ch before

/-- PRESENCE_RETURN (R176, R142). -/
def execPresenceReturn (ch : Channel) (s : State) : Host.Outcome State Fault Refusal :=
  let s := { s with presenceLine := PerChannel.set s.presenceLine ch true }
  live s fun s =>
    if (s.ccu ch).phase = .disconnected then
      { s.setCcu ch (.reset true) with views := PerChannel.set s.views ch true }
    else s

end Sys2Proof.Machine
end

