-- ==== Sys2Proof/Machine/Channels.lean ====
section
/-! DEFINITION. The Client Channel Units: function words, parameter words, answers and replies (section 10.1, R177). -/

namespace Sys2Proof.Machine

/-- No handshake signal asserted: answering inactive, or at rest (R166, R167). -/
def Handshake.rest : Handshake := ⟨false, false, false, false⟩

/-- Active and empty: a parameter word taken, another wanted (R169). -/
def Handshake.wants : Handshake := ⟨false, true, false, true⟩

/-- Active without full: nothing to place yet (R174). -/
def Handshake.waits : Handshake := ⟨false, true, false, false⟩

/-- Active and full: a reply word placed (R172). -/
def Handshake.places : Handshake := ⟨false, true, true, false⟩

/-- A transaction is open, so that a function word discards it (R167). -/
def ChannelPhase.open : ChannelPhase → Bool
  | .parameters | .awaiting | .reply => true
  | .idle | .disconnected => false

/-- The unit after a function word has ended the open transaction (R167): buffers empty, the marker set by the discard
of an open transaction. -/
def ChannelUnit.ended (u : ChannelUnit) : ChannelUnit :=
  { phase := .idle, collecting := none, params := [], reply := [], discard := u.discard || u.phase.open
    reading := false, handshake := .rest }

/-- The unit builds a reply and enters REPLY; the marker is reported and cleared (R173). A master that holds active for
input is shown the first word (R174). -/
def ChannelUnit.build (u : ChannelUnit) (r : Reply) : ChannelUnit :=
  { u with phase := .reply, collecting := none, params := [], reply := r.words u.discard, discard := false
           handshake := if u.reading then .places else .rest }

/-- A word offered outside PARAMETERS is answered inactive: no signal stays asserted, and the master, which offered a
word, no longer holds active for input. Phase, buffers and marker stay (R169, log 19). -/
def ChannelUnit.answersInactive (u : ChannelUnit) : ChannelUnit := { u with reading := false, handshake := .rest }

/-- The unit hands over a request and enters PENDING (R168, R169, R171). -/
def State.handOver (s : State) (ch : Channel) (r : Request) (sel : Pair) (params : List Word) : State :=
  { s.setCcu ch { s.ccu ch with phase := .awaiting, collecting := none, params := [], reading := false
                                handshake := .rest } with
    handed := s.handed ++ [⟨ch, r, sel, params, true, false⟩] }

/-- A request opened by its function word: handed over at once, or collecting (R168). -/
def State.openRequest (s : State) (ch : Channel) (r : Request) (sel : Pair) : State :=
  if r.parameterCount = 0 then s.handOver ch r sel []
  else s.setCcu ch { s.ccu ch with phase := .parameters, collecting := some ⟨r, sel⟩, params := [] }

/-- A function word ends the open transaction (R167). -/
def State.endTransaction (s : State) (ch : Channel) : State :=
  (s.markStale ch).setCcu ch (s.ccu ch).ended

/-- The CLEAR_PORT function word (R177): no discard is reported. -/
def State.portCleared (s : State) (ch : Channel) : State :=
  let s := s.endTransaction ch
  s.setCcu ch (({ s.ccu ch with discard := false } : ChannelUnit).build (.ok []))

/-- A function word taken, by the request its code names (R167, R168, R177). -/
def State.functionTaken (s : State) (ch : Channel) (w : Word) : State :=
  match decodeRequest (functionCode w) with
  | some .clearPort => s.portCleared ch
  | some r => (s.endTransaction ch).openRequest ch r (functionSelector w)
  | none =>
    let s := s.endTransaction ch
    s.setCcu ch ((s.ccu ch).build (.refusal .unknownRequest))

/-- FUNCTION_WORD (R167). In DISCONNECTED no word is taken. The function word of CLEAR_PORT is that request
(log 12). -/
def execFunctionWord (ch : Channel) (w : Word) (s : State) : Host.Outcome State Fault Refusal :=
  live s fun s => if (s.ccu ch).phase = .disconnected then s else s.functionTaken ch w

/-- A parameter word taken in PARAMETERS (R169): the last one is answered inactive and hands the request over, the others
are answered empty. -/
def State.parameterTaken (s : State) (ch : Channel) (o : OpenRequest) (w : Word) : State :=
  let params := (s.ccu ch).params ++ [w]
  if params.length < o.request.parameterCount then
    s.setCcu ch { s.ccu ch with params := params, handshake := .wants }
  else s.handOver ch o.request o.selector params

/-- A word offered with function deasserted in IDLE, PENDING or REPLY: answered inactive at once and not taken (R169). In
DISCONNECTED the unit drives no signal (R175); in PARAMETERS such a word is no stray (log 2). -/
def State.strayOffered (s : State) (ch : Channel) : State :=
  match (s.ccu ch).phase with
  | .idle | .awaiting | .reply => s.setCcu ch (s.ccu ch).answersInactive
  | .parameters | .disconnected => s

/-- PARAMETER_WORD (R169). Outside PARAMETERS the word is a stray one. -/
def execParameterWord (ch : Channel) (w : Word) (s : State) : Host.Outcome State Fault Refusal :=
  live s fun s =>
    match (s.ccu ch).phase, (s.ccu ch).collecting with
    | .parameters, some o => s.parameterTaken ch o w
    | _, _ => s.strayOffered ch

/-- STRAY_WORD (R169). -/
def execStrayWord (ch : Channel) (_w : Word) (s : State) : Host.Outcome State Fault Refusal :=
  live s fun s => s.strayOffered ch

/-- SHORT_PARAMETERS (R170). -/
def execShortParameters (ch : Channel) (s : State) : Host.Outcome State Fault Refusal :=
  live s fun s =>
    if (s.ccu ch).phase = .parameters then s.setCcu ch ((s.ccu ch).build (.refusal .shortParameters)) else s

/-- The unit takes an answer: it builds the reply of its open transaction, or discards the answer of one that has ended
(R171, R173, R175). -/
def State.answerArrives (s : State) (ch : Channel) (a : Answer) : State :=
  let s := { s with answers := s.answers.eraseP fun a => decide (a.channel = ch) }
  if a.live && decide ((s.ccu ch).phase = .awaiting) then s.setCcu ch ((s.ccu ch).build a.reply) else s

/-- ANSWER_TAKEN (R171): the oldest answer given to the channel. -/
def execAnswerTaken (ch : Channel) (s : State) : Host.Outcome State Fault Refusal :=
  live s fun s =>
    match s.answers.find? fun a => decide (a.channel = ch) with
    | none => s
    | some a => s.answerArrives ch a

/-- The unit after the master has taken one reply word (R172): the next word placed, or inactive and IDLE after the
last. -/
def ChannelUnit.wordRead (u : ChannelUnit) : ChannelUnit :=
  match u.reply with
  | _ :: w :: rest => { u with reply := w :: rest, reading := true, handshake := .places }
  | _ => { u with phase := .idle, reply := [], reading := false, handshake := .rest }

/-- REPLY_WORD_READ (R172); in PENDING the master sees active without full (R174). -/
def execReplyWordRead (ch : Channel) (s : State) : Host.Outcome State Fault Refusal :=
  live s fun s =>
    match (s.ccu ch).phase with
    | .reply => s.setCcu ch (s.ccu ch).wordRead
    | .awaiting => s.setCcu ch { s.ccu ch with reading := true, handshake := .waits }
    | .idle | .parameters | .disconnected => s

/-- REPLY_ABANDONED (R172): the words left are lost and the marker is set; in PENDING the unit stays there (R174). -/
def execReplyAbandoned (ch : Channel) (s : State) : Host.Outcome State Fault Refusal :=
  live s fun s =>
    match (s.ccu ch).phase with
    | .reply =>
      s.setCcu ch { s.ccu ch with phase := .idle, reply := [], discard := true, reading := false, handshake := .rest }
    | .awaiting => s.setCcu ch (s.ccu ch).answersInactive
    | .idle | .parameters | .disconnected => s

/-- CLEAR_PORT (R177). -/
def execClearPort (ch : Channel) (s : State) : Host.Outcome State Fault Refusal :=
  live s fun s => if (s.ccu ch).phase = .disconnected then s else s.portCleared ch

end Sys2Proof.Machine
end

