-- ==== Sys2Proof/Machine/Claims.lean ====
section
/-! DEFINITION. The Claim and Alarm Unit: claim requests, READ_CLAIMS, READ_ALARMS, ACK_ALARM (chapter 8). -/

namespace Sys2Proof.Machine

/-- Abort reasons (R142 to R148, R186). -/
inductive AbortReason where
  | none | held | notClean | notOwner | tagMismatch | notHeld
deriving DecidableEq, Repr

/-- Abort reason codes (R186). -/
def AbortReason.code : AbortReason → Nat
  | .none => 0
  | .held => 1
  | .notClean => 2
  | .notOwner => 3
  | .tagMismatch => 4
  | .notHeld => 5

/-- What a claim request does to a claim record: the reason, the record it leaves, and the former owner whose claim was
taken over (R147). -/
structure ClaimResult where
  reason : AbortReason
  record : Claim
  lost   : Option Channel
deriving DecidableEq, Repr

/-- The request is accepted with a record. -/
def ClaimResult.accept (c : Claim) : ClaimResult := ⟨.none, c, none⟩

/-- The request aborts and leaves the record as it was. -/
def ClaimResult.abort (c : Claim) (r : AbortReason) : ClaimResult := ⟨r, c, none⟩

/-- The record's owner is the caller. -/
def Claim.ownedBy (c : Claim) (ch : Channel) : Bool := decide (c.owner = some ch)

/-- The rule of CLAIM (R144). -/
def claimRule (ch : Channel) (tag : Word) (now : Time) (c : Claim) : ClaimResult :=
  match c.owner with
  | none => .accept { owner := some ch, tag := tag, since := now }
  | some o => if o = ch then .accept { c with tag := tag } else .abort c .held

/-- The rule of CLAIM_IF_CLEAN (R145). -/
def claimIfCleanRule (unclean : Bool) (ch : Channel) (tag : Word) (now : Time) (c : Claim) : ClaimResult :=
  if c.owner ≠ none ∧ c.owner ≠ some ch then .abort c .held
  else if unclean then .abort c .notClean
  else claimRule ch tag now c

/-- The rule of CHECK (R146). -/
def checkRule (ch : Channel) (tag : Word) (c : Claim) : ClaimResult :=
  if c.ownedBy ch then (if c.tag = tag then .accept c else .abort c .tagMismatch) else .abort c .notOwner

/-- The rule of TAKEOVER (R147). -/
def takeoverRule (ch : Channel) (tag : Word) (now : Time) (c : Claim) : ClaimResult :=
  match c.owner with
  | none => .abort c .notHeld
  | some o =>
    if o = ch then .accept c
    else if c.tag = tag then ⟨.none, { owner := some ch, tag := c.tag, since := now }, some o⟩
    else .abort c .tagMismatch

/-- The rule of RELEASE (R148). -/
def releaseRule (ch : Channel) (now : Time) (c : Claim) : ClaimResult :=
  if c.ownedBy ch then .accept { owner := none, tag := 0, since := now } else .abort c .notOwner

/-- The answer to a decided claim request: ACCEPTED or ABORT, the abort reason, and the owner as the request left it
(R179, R188). -/
def ClaimResult.reply (x : ClaimResult) : Reply :=
  { status := if x.reason = .none then .accepted else .abort, clamped := false, overflow := false, requested := 0
    data := [word x.reason.code, word (ownerCode x.record.owner)] }

/-- The CLAIM_LOST record of a takeover (R147). -/
def State.postTakenOver (s : State) (r : Resource) : Option Channel → State
  | none => s
  | some o => s.postHome o (.claimLost r o .takenOver)

/-- A decided claim request carried out and answered. -/
def State.claimDecided (s : State) (h : Handed) (r : Resource) (x : ClaimResult) : State :=
  ((s.setClaim r x.record).postTakenOver r x.lost).answer h x.reply

/-- A claim request whose caller is present: permit, range, then its rule (R143). -/
def State.claimChecked (s : State) (h : Handed) (openToObserve : Bool) (rule : Claim → ClaimResult) : State :=
  if PerChannel.get s.straps.permits h.channel = .observe ∧ openToObserve = false then
    s.answer h (.refusal .notPermitted)
  else
    match resource? h.selector with
    | none => s.answer h (.refusal .outOfRange)
    | some r => s.claimDecided h r (rule (s.claim r))

/-- A claim request is not executed and not answered when the caller's view is ABSENT (R142, R143), nor when it was
handed over before a presence loss and is taken after it (R150, R175). That this holds too once the presence has
returned, with the view PRESENT again, is the model's choice (log 31). -/
def State.claimRequest (s : State) (h : Handed) (openToObserve : Bool) (rule : Claim → ClaimResult) : State :=
  if PerChannel.get s.views h.channel && !h.lost then s.claimChecked h openToObserve rule else s

/-- CLAIM (R144). -/
def execClaim (ch : Channel) (s : State) : Host.Outcome State Fault Refusal :=
  serve s ch .claim fun h s => s.claimRequest h false (claimRule ch (word (h.word 0)) s.epoch)

/-- CLAIM_IF_CLEAN (R145). -/
def execClaimIfClean (ch : Channel) (s : State) : Host.Outcome State Fault Refusal :=
  serve s ch .claimIfClean fun h s =>
    s.claimRequest h false (claimIfCleanRule s.alarms.unclean ch (word (h.word 0)) s.epoch)

/-- CHECK (R146), open to a channel strapped OBSERVE (R143). -/
def execCheck (ch : Channel) (s : State) : Host.Outcome State Fault Refusal :=
  serve s ch .check fun h s => s.claimRequest h true (checkRule ch (word (h.word 0)))

/-- TAKEOVER (R147). -/
def execTakeover (ch : Channel) (s : State) : Host.Outcome State Fault Refusal :=
  serve s ch .takeover fun h s => s.claimRequest h false (takeoverRule ch (word (h.word 0)) s.epoch)

/-- RELEASE (R148). -/
def execRelease (ch : Channel) (s : State) : Host.Outcome State Fault Refusal :=
  serve s ch .release fun h s => s.claimRequest h false (releaseRule ch s.epoch)

/-- The words of one claim record for a caller: the tag only for its owner (R152, R188). -/
def Claim.wordsFor (c : Claim) (ch : Channel) : List Word :=
  word (ownerCode c.owner) :: (timeWords c.since ++ [if c.ownedBy ch then c.tag else 0])

/-- READ_CLAIMS (R152). -/
def execReadClaims (ch : Channel) (s : State) : Host.Outcome State Fault Refusal :=
  serve s ch .readClaims fun h s => s.answer h (.ok (s.lineClaim.wordsFor ch ++ s.tablesClaim.wordsFor ch))

/-- READ_ALARMS (R153, R188). -/
def execReadAlarms (ch : Channel) (s : State) : Host.Outcome State Fault Refusal :=
  serve s ch .readAlarms fun h s => s.answer h (.ok [s.alarms.word])

/-- Whether an alarm item is set; none for a word that names no item (R154, R186). -/
def Alarms.item? (a : Alarms) (p : Pair) (n : Nat) : Option Bool :=
  match n with
  | 0 => some (a.verdict.getLsbD p.val)
  | 1 => some a.selectorFault
  | 2 => some a.receiverLos
  | _ => none

/-- An alarm item cleared (R154). -/
def Alarms.clearItem (a : Alarms) (p : Pair) (n : Nat) : Alarms :=
  match n with
  | 0 => { a with verdict := a.verdict &&& ~~~ (BitVec.twoPow 8 p.val) }
  | 1 => { a with selectorFault := false }
  | 2 => { a with receiverLos := false }
  | _ => a

/-- ACK_ALARM (R154). -/
def State.ackAlarm (s : State) (h : Handed) : State :=
  s.decided h
    [(decide (PerChannel.get s.straps.permits h.channel = .observe), .notPermitted),
     ((s.alarms.item? h.selector (h.word 0)).isNone || decide (h.word 0 = 0) && !s.fitted h.selector, .outOfRange)]
    (({ s with alarms := s.alarms.clearItem h.selector (h.word 0) } : State).answer h
      (.ok [word ((s.alarms.item? h.selector (h.word 0)).getD false).toNat]))

/-- ACK_ALARM (R154). -/
def execAckAlarm (ch : Channel) (s : State) : Host.Outcome State Fault Refusal :=
  serve s ch .ackAlarm fun h s => s.ackAlarm h

end Sys2Proof.Machine
end

