-- ==== Sys2Proof/Machine/Sweep.lean ====
section
/-! DEFINITION. The chip instants: strobes, chip history, accumulation, clip count, response intervals, and the period ends
of a sweep (R5, R11, R12, R48, R61 to R70, R126, R127). -/

namespace Sys2Proof.Machine

/-! ### Period ends -/

/-- A period end has been reached and not yet taken (R5). -/
def ChipTimer.due (t : ChipTimer) (len : Nat) : Bool := decide ((t.ends + 1) * len ≤ t.index)

/-- The period end is taken. -/
def ChipTimer.takeEnd (t : ChipTimer) : ChipTimer := { t with ends := t.ends + 1 }

/-- A period end of the current work in a state, with what it changes (R5); without one nothing changes (log 2). -/
def State.atPeriodEnd (s : State) (st : LineState) (act : Current → ChipTimer → State) : State :=
  match s.current, s.chipTimer with
  | some c, some t => if c.state = st ∧ t.due c.len = true then act c t else s
  | _, _ => s

/-- The integration count P of a sweep; 0 for a command. -/
def Work.periods (w : Work) : Nat :=
  match w.kind with
  | .sweep _ p => p
  | .command .. => 0

/-- SETTLE_PERIOD_END (R48): the first period end moves the sweep to INTEGRATE. -/
def execSettlePeriodEnd (s : State) : Host.Outcome State Fault Refusal :=
  live s fun s => s.atPeriodEnd .settle fun c t =>
    { s with current := some { c with state := .integrate }, chipTimer := some t.takeEnd }

/-- INTEGRATE_PERIOD_END (R48): period ends 2 to P change no state. -/
def execIntegratePeriodEnd (s : State) : Host.Outcome State Fault Refusal :=
  live s fun s => s.atPeriodEnd .integrate fun c t =>
    if t.ends < c.work.periods then { s with chipTimer := some t.takeEnd } else s

/-- Which action follows the last watch point (R94). -/
def stageAfterSegments (kind : SweepKind) (refLost degraded : Bool) : EvalStage :=
  if refLost || degraded then .finished
  else
    match kind with
    | .monitor => .streak
    | .baseline => .rebaseline

/-- The kind of a sweep; commands never reach an evaluation. -/
def Work.sweepKind (w : Work) : SweepKind :=
  match w.kind with
  | .sweep k _ => k
  | .command .. => .monitor

/-- The evaluation moves on when no segment remains (R94). -/
def Evaluation.settleStage (e : Evaluation) (kind : SweepKind) : Evaluation :=
  if e.remaining = [] then { e with stage := stageAfterSegments kind e.refLost e.degraded } else e

/-- The evaluation as it begins (R67, R70, R79). -/
def State.newEvaluation (s : State) (w : Work) : Evaluation :=
  ({ remaining := s.allocation, policy := s.policy w.pair, refLevel := 0, evaluated := 0, saturated := 0
     degraded := decide ((s.policy w.pair).clipLimit < s.clipCount), refLost := false
     stage := .segments } : Evaluation).settleStage w.sweepKind

/-- INTEGRATE_COMPLETE (R68): period end P + 1 stops the chip timer and enters EVALUATE. -/
def execIntegrateComplete (s : State) : Host.Outcome State Fault Refusal :=
  live s fun s => s.atPeriodEnd .integrate fun c t =>
    if c.work.periods ≤ t.ends then
      { s with current := some { c with state := .evaluate }, chipTimer := none
               evaluation := some (s.newEvaluation c.work) }
    else s

/-! ### The strobe -/

/-- The lag of cell w of a segment (R61). -/
def Segment.lag (g : Segment) (w : Nat) : Int := (g.centre : Int) - ((g.width / 2 : Nat) : Int) + (w : Int)

/-- The chip sent `lag` instants before instant n, from the chip history (R62, R63). -/
def State.chipAt (s : State) (len n : Nat) (lag : Int) : Bool :=
  Memory.read chipDefault s.chipHistory (((n : Int) - lag) % (len : Int)).toNat

/-- A product added into a cell, with saturation (R65). -/
def Cell.add (c : Cell) (x : Int) : Cell :=
  if c.marked then c
  else if Config.cellMax < c.value + x then ⟨Config.cellMax, true⟩
  else if c.value + x < Config.cellMin then ⟨Config.cellMin, true⟩
  else ⟨c.value + x, false⟩

/-- The product of a sample and a chip (R63). -/
def product (sample : Sample) (chip : Bool) : Int := if chip then sample.toInt else -sample.toInt

/-- The cells of a segment (section 4.1). -/
def Segment.cells (g : Segment) : List Nat := (List.range g.width).map (· + g.first)

/-- The product that sample s_n adds into cell `k` of a segment (R61, R63). -/
def State.cellProduct (s : State) (len n : Nat) (sample : Sample) (g : Segment) (k : Nat) : Int :=
  product sample (s.chipAt len n (g.lag (k - g.first)))

/-- The sample of instant n added into every cell of a segment (R63). -/
def State.accumulateSegment (s : State) (len n : Nat) (sample : Sample) (g : Segment) : State :=
  { s with cells := Memory.update cellDefault (fun k c => c.add (s.cellProduct len n sample g k)) s.cells g.cells }

/-- The sample of instant n added into every segment (R63, R127). -/
def State.accumulate (s : State) (len n : Nat) (sample : Sample) : List Segment → State
  | [] => s
  | g :: rest => State.accumulate (s.accumulateSegment len n sample g) len n sample rest

/-- A clipped sample (R12). -/
def clipped (sample : Sample) : Bool := decide (sample.toInt = -2048 ∨ sample.toInt = 2047)

/-- The clip count after a sample of INTEGRATE (R12). -/
def clipAfter (count : Nat) (sample : Sample) : Nat := if clipped sample then min 65535 (count + 1) else count

/-- The chip of instant n recorded (R62, R125, log 25). -/
def State.recordChip (s : State) (len n : Nat) : State :=
  { s with chipHistory := Memory.write chipDefault s.chipHistory (n % len) s.generator.chip }

/-- The end of a chip instant: the generator shifts and the next instant begins (R4, R5). -/
def State.nextInstant (s : State) (t : ChipTimer) : State :=
  { s with generator := s.generator.shift, chipTimer := some { t with index := t.index + 1 } }

/-- The centre lag of the command's segment (R122). -/
def State.commandLag (s : State) : Nat :=
  match s.allocation with
  | [] => 0
  | g :: _ => g.centre

/-- The first instant of interval 1 (R126). -/
def State.firstInstant (s : State) (len : Nat) : Nat := 33 * len + s.commandLag

/-- A response interval is open (R126, R127). -/
def CommandPhase.intervalOpen : CommandPhase → Bool
  | .readySearch | .startSearch | .data => true
  | .free | .checking | .frame | .roundTrip => false

/-- The values of a segment's cells (R70, R127). -/
def State.cellValues (s : State) (g : Segment) : List Int :=
  g.cells.map fun k => (Memory.read cellDefault s.cells k).value

/-- The open interval is handed over when the next instant is the first of the next interval, and its cells go back to 0
in one action (R127). -/
def State.closeInterval (s : State) (len next : Nat) : State :=
  match s.cmu.captured, s.allocation with
  | some cap, g :: _ =>
    if next = s.firstInstant len + s.cmu.interval * (cap.periods * len) then
      { s with intervals := s.intervals ++ [⟨s.cmu.interval, s.cellValues g⟩]
               cells := clearSegments s.cells [g]
               cmu := { s.cmu with interval := s.cmu.interval + 1 } }
    else s
  | _, _ => s

/-- A sample of a response interval (R11, R127). -/
def State.intervalSample (s : State) (len n : Nat) (sample : Sample) : State :=
  (s.accumulate len n sample s.allocation).closeInterval len (n + 1)

/-- What becomes of the sample of instant n (R11): accumulated in INTEGRATE and in open response intervals, dropped
elsewhere. -/
def State.deliver (s : State) (c : Current) (n : Nat) (sample : Sample) : State :=
  match c.state with
  | .integrate =>
    ({ s with clipCount := clipAfter s.clipCount sample } : State).accumulate c.len n sample s.allocation
  | .responseWait | .busyWait | .responseRx =>
    if s.cmu.phase.intervalOpen then s.intervalSample c.len n sample else s
  | .startChecks | .select | .settle | .evaluate | .commandTx => s

/-- A period end, or the end of the round trip, is due and has not been taken: no strobe comes before it (log 10). A closed
interval that is not yet classified holds no strobe back, however many come (log 34). -/
def State.strobeWaits (s : State) (c : Current) (t : ChipTimer) : Bool :=
  match c.state with
  | .settle | .integrate | .commandTx => t.due c.len
  | .responseWait | .busyWait => decide (s.cmu.phase = .roundTrip) && decide (s.firstInstant c.len ≤ t.index)
  | .startChecks | .select | .evaluate | .responseRx => false

/-- The end of the chip instant in progress (R5, R11, R62). -/
def State.strobe (s : State) (c : Current) (t : ChipTimer) (sample : Sample) : State :=
  ((s.recordChip c.len t.index).deliver c t.index sample).nextInstant t

/-- SAMPLE_STROBE (R5, R11): while the chip timer is stopped there are no strobes. -/
def execSampleStrobe (sample : Sample) (s : State) : Host.Outcome State Fault Refusal :=
  live s fun s =>
    match s.current, s.chipTimer with
    | some c, some t => if s.strobeWaits c t then s else s.strobe c t sample
    | _, _ => s

end Sys2Proof.Machine
end

