-- ==== Sys2Proof/Machine/Commands.lean ====
section
/-! DEFINITION. The Command Unit past the start checks: frame, round trip, intervals, attempts and outcomes (chapter 7). -/

namespace Sys2Proof.Machine

/-- The operation of a command; MARK for a sweep, which never asks. -/
def Work.operation (w : Work) : Operation :=
  match w.kind with
  | .command _ op _ => op
  | .sweep .. => .mark

/-- FRAME_BIT_PERIOD_END (R125): the frame shift state moves to the next bit, which keys the tone. -/
def execFrameBitPeriodEnd (s : State) : Host.Outcome State Fault Refusal :=
  live s fun s => s.atPeriodEnd .commandTx fun _ t =>
    if t.ends + 1 < 32 then
      { s with chipTimer := some t.takeEnd, cmu := { s.cmu with bit := s.cmu.bit + 1 } }
    else s

/-- The state after the frame end (R51, R125). -/
def Operation.waitState (op : Operation) : LineState := if op.busy then .busyWait else .responseWait

/-- FRAME_END (R125): period end 32. The number of the bit being sent keeps 32 from here to the next entry to COMMAND_TX;
R119 gives it 1 to 32 and no value outside FRAME (the model's choice, log 35). -/
def execFrameEnd (s : State) : Host.Outcome State Fault Refusal :=
  live s fun s => s.atPeriodEnd .commandTx fun c t =>
    if t.ends + 1 < 32 then s
    else
      { s with chipTimer := some t.takeEnd, cmu := { s.cmu with phase := .roundTrip }
               current := some { c with state := c.work.operation.waitState } }

/-- The phase interval 1 opens in (R126). -/
def Operation.firstPhase (op : Operation) : CommandPhase := if op.busy then .readySearch else .startSearch

/-- Interval 1 opens: its cells are at 0 (R126, R127). -/
def State.openIntervals (s : State) (op : Operation) : State :=
  { s with cells := clearSegments s.cells s.allocation
           cmu := { s.cmu with phase := op.firstPhase, interval := 1, startCount := 0, litRun := false } }

/-- ROUND_TRIP_END (R126). -/
def execRoundTripEnd (s : State) : Host.Outcome State Fault Refusal :=
  live s fun s =>
    match s.current, s.chipTimer with
    | some c, some t =>
      if s.cmu.phase = .roundTrip ∧ s.firstInstant c.len ≤ t.index then s.openIntervals c.work.operation else s
    | _, _ => s

/-- A result that a further attempt may mend (R134). -/
def WorkOutcome.retries : WorkOutcome → Bool
  | .noResponse | .mismatch => true
  | _ => false

/-- The end of an attempt: a retry, or the end of the command (R134, R135). -/
def State.attemptEnds (s : State) (c : Current) (cap : Captured) (o : WorkOutcome) (status : Option Word)
    (telemetry : Option Telemetry) : State :=
  if o.retries && decide (s.cmu.attempt < cap.attempts) then s.enterTx c
  else s.commandEnds c c.work.housing c.work.operation o status telemetry

/-- The start interval found: DATA, and RESPONSE_RX (R129, R130). The start-search count and the lit run keep their values
in DATA (the model's choice, log 36). -/
def State.startFound (s : State) (c : Current) : State :=
  { s with cmu := { s.cmu with phase := .data, collector := [] }, current := some { c with state := .responseRx } }

/-- An interval in START_SEARCH (R129, R130). The start-search count counts the lit intervals passed over; R119 gives it
only its range, 0 to 4 (the model's choice, log 36). -/
def State.startSearch (s : State) (c : Current) (cap : Captured) (lit : Bool) : State :=
  if !lit then s.startFound c
  else if s.cmu.startCount + 1 < 4 then { s with cmu := { s.cmu with startCount := s.cmu.startCount + 1 } }
  else s.attemptEnds c cap .noResponse none none

/-- Ready is found at an interval (R130). -/
def CommandUnit.ready (u : CommandUnit) (number : Nat) (lit : Bool) : Bool := lit && u.litRun && decide (2 ≤ number)

/-- The interval that reaches the busy limit without ready (R130). -/
def CommandUnit.timesOut (u : CommandUnit) (cap : Captured) (number : Nat) (lit : Bool) : Bool :=
  decide (u.phase = .readySearch) && !u.ready number lit && decide (number = cap.busyLimit)

/-- An interval in READY_SEARCH (R130). When ready is found the start-search count starts at 0 and the lit run keeps its
value (the model's choice, log 36). -/
def State.readySearch (s : State) (c : Current) (cap : Captured) (number : Nat) (lit : Bool) : State :=
  if s.cmu.ready number lit then { s with cmu := { s.cmu with phase := .startSearch, startCount := 0 } }
  else if number = cap.busyLimit then s.attemptEnds c cap .busyTimeout none none
  else { s with cmu := { s.cmu with litRun := lit } }

/-- The telemetry words kept: of READ_TELEMETRY with outcome DONE (R133). -/
def telemetryKept (cap : Captured) (op : Operation) (o : WorkOutcome) (bits : List Bool) : Option Telemetry :=
  if op = .readTelemetry ∧ o = .done then
    some ⟨responseWord cap.bitOrder cap.nibbleOrder bits 1, responseWord cap.bitOrder cap.nibbleOrder bits 2,
          responseWord cap.bitOrder cap.nibbleOrder bits 3⟩
  else none

/-- A complete response (R131, R132, R133). -/
def State.responseComplete (s : State) (c : Current) (cap : Captured) (bits : List Bool) : State :=
  let op := c.work.operation
  let status := responseWord cap.bitOrder cap.nibbleOrder bits 0
  let o := statusOutcome op c.work.pair cap.address status
  s.attemptEnds c cap o (some status) (telemetryKept cap op o bits)

/-- A data interval (R131). -/
def State.dataInterval (s : State) (c : Current) (cap : Captured) (lit : Bool) : State :=
  let bits := s.cmu.collector ++ [lit]
  if bits.length < c.work.operation.dataIntervals then { s with cmu := { s.cmu with collector := bits } }
  else s.responseComplete c cap bits

/-- The reading of an interval: lit when its level reaches the captured threshold (R128). -/
def intervalLit (cap : Captured) (len : Nat) (values : List Int) : Bool :=
  decide (cap.threshold ≤ levelOf (peak values).1 cap.periods len)

/-- The Command Unit acts on a classified interval in its phase (R128 to R131). -/
def State.classifiedInterval (s : State) (c : Current) (cap : Captured) (number : Nat) (lit : Bool) : State :=
  match s.cmu.phase with
  | .readySearch => s.readySearch c cap number lit
  | .startSearch => s.startSearch c cap lit
  | .data => s.dataInterval c cap lit
  | .free | .checking | .frame | .roundTrip => s

/-- The oldest interval handed over, with the command it belongs to (R128). -/
def State.headInterval (s : State) : Option (Interval × Current × Captured) :=
  match s.intervals, s.current, s.cmu.captured with
  | i :: _, some c, some cap => some (i, c, cap)
  | _, _, _ => none

/-- INTERVAL_CLASSIFIED (R128). -/
def execIntervalClassified (s : State) : Host.Outcome State Fault Refusal :=
  live s fun s =>
    match s.headInterval with
    | none => s
    | some (i, c, cap) =>
      ({ s with intervals := s.intervals.tail } : State).classifiedInterval c cap i.number
        (intervalLit cap c.len i.values)

/-- BUSY_TIMEOUT (R130): the oldest interval handed over reaches the busy limit without ready (log 11). -/
def execBusyTimeout (s : State) : Host.Outcome State Fault Refusal :=
  live s fun s =>
    match s.headInterval with
    | none => s
    | some (i, c, cap) =>
      if s.cmu.timesOut cap i.number (intervalLit cap c.len i.values) then
        ({ s with intervals := s.intervals.tail } : State).attemptEnds c cap .busyTimeout none none
      else s

end Sys2Proof.Machine
end

