-- ==== Sys2Proof/Machine/TableStore.lean ====
section
/-! DEFINITION. The writes of the Table Store (chapter 2 and R2, R3). -/

namespace Sys2Proof.Machine

/-! ### Shared checks and answers -/

/-- The claim check of a Table Store write fails (R17, R151). -/
def State.lacksTables (s : State) (h : Handed) : Bool := !s.holds h.channel .tables

/-- A pair at or above PAIRS_FITTED (R17, R178). -/
def State.unfitted (s : State) (h : Handed) : Bool := !s.fitted h.selector

/-- A housing 1 to 192 (R18). -/
def notRepeater (n : Nat) : Bool := outside 1 192 n

/-- A housing 0 to 192 (R18). -/
def notHousing (n : Nat) : Bool := outside 0 192 n

/-- ACCEPTED, with CLAMPED and data words where the request's rule names them (R17). -/
def State.accepted (s : State) (h : Handed) (clamped : Bool) (data : List Word) : State :=
  s.answer h (.okClamped clamped data)

/-- The records (p, h) of a list of housings rewritten. -/
def State.updateWps (s : State) (p : Pair) (hs : List Nat) (f : Nat → WatchPoint → WatchPoint) : State :=
  { s with watchPoints :=
      Memory.update wpDefault (fun k => f (k - p.val * 193)) s.watchPoints (hs.map (wpKey p)) }

/-- The records of every pair in a list rewritten. -/
def State.updatePairs (s : State) (hs : List Nat) (f : Nat → WatchPoint → WatchPoint) : List Pair → State
  | [] => s
  | p :: ps => State.updatePairs (s.updateWps p hs f) hs f ps

/-- The watch point of some pair is enabled (R19, R20). -/
def State.enabledAt (s : State) (h : Nat) : Bool := allPairs.any fun p => (s.wp p h).enabled

/-- Some watch point of some pair is enabled (R2). -/
def State.anyEnabled (s : State) : Bool := allHousings.any s.enabledAt

/-! ### WRITE_LINE_SETUP -/

/-- Some field lies outside its range, with L from the new m (R2, step 1). -/
def setupOutside (m k refLag settle : Nat) : Bool :=
  outside 11 15 m || outside 0 6 k || outside 1 255 settle || outside 32 (seqLength m - 33) refLag

/-- The line side is not idle, or a watch point is enabled (R2, step 2). -/
def State.lineNotIdle (s : State) : Bool :=
  s.current.isSome || !s.workQueue.isEmpty || !s.isolationQueue.isEmpty || s.anyEnabled

/-- A present housing lies too far out for the new L, or the reference lag is not below the first (R2, step 3). -/
def State.setupLagOrder (s : State) (m refLag : Nat) : Bool :=
  (repeaters.any fun h => (s.housing h).present && decide (seqLength m - 32 ≤ (s.housing h).lag)) ||
    match repeaters.find? fun h => (s.housing h).present with
    | none => false
    | some h => decide ((s.housing h).lag ≤ refLag)

/-- The Line Setup replaced, with every centre lag back at its nominal lag (R3). -/
def State.storeLineSetup (s : State) (setup : LineSetup) : State :=
  let s := { s with lineSetup := setup }
  s.updatePairs allHousings (fun h w => { w with centre := s.nominalLag h }) allPairs

/-- The checks of WRITE_LINE_SETUP (R2). -/
def State.writeLineSetup (s : State) (h : Handed) : State :=
  s.decided h
    [(s.lacksTables h, .notClaimed),
     (setupOutside (h.word 0) (h.word 1) (h.word 2) (h.word 3), .outOfRange),
     (s.lineNotIdle, .lineNotIdle),
     (s.setupLagOrder (h.word 0) (h.word 2), .lagOrder)]
    ((s.storeLineSetup ⟨h.word 0, h.word 1, h.word 2, h.word 3⟩).accepted h false [])

/-- WRITE_LINE_SETUP (R2, R3). -/
def execWriteLineSetup (ch : Channel) (s : State) : Host.Outcome State Fault Refusal :=
  serve s ch .writeLineSetup fun h s => s.writeLineSetup h

/-! ### WRITE_HOUSING -/

/-- The entry that the words of a WRITE_HOUSING with present yes give; none when a dialect word is not an encoding
(R18, R184). -/
def Handed.housingEntry? (h : Handed) : Option HousingEntry :=
  match bitOrder? (h.word 4), nibbleOrder? (h.word 5), onOff? (h.word 6), onOff? (h.word 7) with
  | some b, some n, some long, some swap => some ⟨true, h.word 2, h.word 3, b, n, long, swap⟩
  | _, _, _, _ => none

/-- Another present housing holds the address (R19, step 3). -/
def State.addressTaken (s : State) (n address : Nat) : Bool :=
  repeaters.any fun i => decide (i ≠ n) && (s.housing i).present && decide ((s.housing i).address = address)

/-- The nearest present housing below: housing 0 when there is none nearer (R19, step 4). -/
def State.presentBelow (s : State) (n : Nat) : Nat := ((List.range n).reverse.find? s.present).getD 0

/-- The nearest present housing above (R19, step 4). -/
def State.presentAbove (s : State) (n : Nat) : Option Nat :=
  ((List.range (192 - n)).map (· + (n + 1))).find? s.present

/-- The lag does not stand strictly between those of the neighbours (R19, step 4). -/
def State.housingLagOrder (s : State) (n lag : Nat) : Bool :=
  decide (lag ≤ s.nominalLag (s.presentBelow n)) ||
    match s.presentAbove n with
    | none => false
    | some a => decide (s.nominalLag a ≤ lag)

/-- An entry written, with the centre lags of its watch points (R21). -/
def State.storeHousing (s : State) (n : Nat) (e : HousingEntry) : State :=
  (s.setHousing n e).updatePairs [n] (fun _ w => { w with centre := e.lag }) allPairs

/-- The checks of WRITE_HOUSING: present yes (R19), present no (R20), and a present word that is neither. -/
def State.writeHousing (s : State) (h : Handed) : State :=
  let n := h.word 0
  match onOff? (h.word 1) with
  | some true =>
    s.decided h
      [(s.lacksTables h, .notClaimed),
       (notRepeater n || outside 1 4094 (h.word 2) || outside 32 (s.len - 33) (h.word 3) || h.housingEntry?.isNone,
        .outOfRange),
       (s.enabledAt n, .watchPointEnabled),
       (s.addressTaken n (h.word 2), .duplicateAddress),
       (s.housingLagOrder n (h.word 3), .lagOrder)]
      ((s.storeHousing n (h.housingEntry?.getD (housingDefault n))).accepted h false [])
  | some false =>
    s.decided h
      [(s.lacksTables h, .notClaimed), (notRepeater n, .outOfRange), (s.enabledAt n, .watchPointEnabled)]
      ((s.storeHousing n (housingDefault n)).accepted h false [])
  | none => s.decided h [(s.lacksTables h, .notClaimed)] (s.answer h (.refusal .outOfRange))

/-- WRITE_HOUSING (R19, R20, R21). -/
def execWriteHousing (ch : Channel) (s : State) : Host.Outcome State Fault Refusal :=
  serve s ch .writeHousing fun h s => s.writeHousing h

/-! ### WRITE_TEMPLATE -/

/-- An enabled watch point selects the template (R23, step 2). -/
def State.templateInUse (s : State) (t : Nat) : Bool :=
  allPairs.any fun p => allHousings.any fun h => (s.wp p h).enabled && decide ((s.wp p h).template = t)

/-- A centre lag moved to the nearer end of nominal lag plus or minus half a width (R23). -/
def nearCentre (nominal width centre : Nat) : Nat := clampTo (nominal - width / 2) (nominal + width / 2) centre

/-- A template stored, with the centre lags of the watch points that select it (R23). -/
def State.storeTemplate (s : State) (t width limit : Nat) : State :=
  ({ s with templates := Memory.write templateDefault s.templates t ⟨width, min limit (width / 4)⟩ } : State).updatePairs
    allHousings
    (fun h w => if w.template = t then { w with centre := nearCentre (s.nominalLag h) width w.centre } else w) allPairs

/-- The checks of WRITE_TEMPLATE (R23). -/
def State.writeTemplate (s : State) (h : Handed) : State :=
  s.decided h
    [(s.lacksTables h, .notClaimed),
     (outside 0 3 (h.word 0) || decide (h.word 1 % 2 = 1) || outside 4 64 (h.word 1), .outOfRange),
     (s.templateInUse (h.word 0), .templateInUse)]
    ((s.storeTemplate (h.word 0) (h.word 1) (h.word 2)).accepted h (decide (h.word 1 / 4 < h.word 2)) [])

/-- WRITE_TEMPLATE (R23). -/
def execWriteTemplate (ch : Channel) (s : State) : Host.Outcome State Fault Refusal :=
  serve s ch .writeTemplate fun h s => s.writeTemplate h

/-! ### WRITE_WATCH_POINT, ENABLE_WATCH_POINTS, DISABLE_WATCH_POINTS -/

/-- The configuration fields written, the centre lag back at the nominal lag (R26). -/
def State.configure (s : State) (p : Pair) (n template : Nat) (q : RQ) (tracking : Bool) : State :=
  s.setWp p n { s.wp p n with template := template, queue := q, tracking := tracking, centre := s.nominalLag n }

/-- The checks of WRITE_WATCH_POINT (R26). -/
def State.writeWatchPoint (s : State) (h : Handed) : State :=
  let p := h.selector
  s.decided h
    [(s.lacksTables h, .notClaimed),
     (s.unfitted h || notHousing (h.word 0) || outside 0 3 (h.word 1) || (queue? (h.word 2)).isNone
        || (onOff? (h.word 3)).isNone, .outOfRange),
     (s.busy p, .pairBusy),
     ((s.wp p (h.word 0)).enabled, .watchPointEnabled)]
    ((s.configure p (h.word 0) (h.word 1) ((queue? (h.word 2)).getD .rq3) ((onOff? (h.word 3)).getD false)).accepted h
      false [])

/-- WRITE_WATCH_POINT (R26). -/
def execWriteWatchPoint (ch : Channel) (s : State) : Host.Outcome State Fault Refusal :=
  serve s ch .writeWatchPoint fun h s => s.writeWatchPoint h

/-- The housings first to last (R27). -/
def housingRange (first last : Nat) : List Nat := (List.range (last + 1 - first)).map (· + first)

/-- The records an enable changes: disabled ones of present housings (R27). -/
def State.toEnable (s : State) (p : Pair) (first last : Nat) : List Nat :=
  (housingRange first last).filter fun h => !(s.wp p h).enabled && s.present h

/-- The records a disable changes (R28). -/
def State.toDisable (s : State) (p : Pair) (first last : Nat) : List Nat :=
  (housingRange first last).filter fun h => (s.wp p h).enabled

/-- The checks of an enable or a disable (R27, R28); a first above last is judged after PAIR_BUSY (log 14). -/
def State.rangeChecks (s : State) (h : Handed) : List (Bool × Status) :=
  [(s.lacksTables h, .notClaimed),
   (s.unfitted h || notHousing (h.word 0) || notHousing (h.word 1), .outOfRange),
   (s.busy h.selector, .pairBusy),
   (decide (h.word 1 < h.word 0), .outOfRange)]

/-- The enabled field of a list of records (R27, R28). -/
def State.setEnabled (s : State) (p : Pair) (hs : List Nat) (b : Bool) : State :=
  s.updateWps p hs fun _ w => { w with enabled := b }

/-- ENABLE_WATCH_POINTS (R27). -/
def State.enableWatchPoints (s : State) (h : Handed) : State :=
  let hs := s.toEnable h.selector (h.word 0) (h.word 1)
  s.decided h (s.rangeChecks h) ((s.setEnabled h.selector hs true).accepted h false [word hs.length])

/-- DISABLE_WATCH_POINTS (R28). -/
def State.disableWatchPoints (s : State) (h : Handed) : State :=
  let hs := s.toDisable h.selector (h.word 0) (h.word 1)
  s.decided h (s.rangeChecks h) ((s.setEnabled h.selector hs false).accepted h false [word hs.length])

/-- ENABLE_WATCH_POINTS (R27). -/
def execEnableWatchPoints (ch : Channel) (s : State) : Host.Outcome State Fault Refusal :=
  serve s ch .enableWatchPoints fun h s => s.enableWatchPoints h

/-- DISABLE_WATCH_POINTS (R28). -/
def execDisableWatchPoints (ch : Channel) (s : State) : Host.Outcome State Fault Refusal :=
  serve s ch .disableWatchPoints fun h s => s.disableWatchPoints h

/-! ### WRITE_BASELINE -/

/-- A baseline stored, or its valid flag cleared by 0 (R31). -/
def State.storeBaseline (s : State) (p : Pair) (n value : Nat) : State :=
  s.setWp p n { s.wp p n with
    baseline := if value = 0 then none else some value, deviation := none, updated := s.epoch }

/-- The checks of a request that names a pair and a repeater housing (R31, R36, R37). -/
def State.housingChecks (s : State) (h : Handed) : List (Bool × Status) :=
  [(s.lacksTables h, .notClaimed), (s.unfitted h || notRepeater (h.word 0), .outOfRange),
   (s.busy h.selector, .pairBusy)]

/-- WRITE_BASELINE (R31). -/
def State.writeBaseline (s : State) (h : Handed) : State :=
  s.decided h (s.housingChecks h) ((s.storeBaseline h.selector (h.word 0) (h.word 1)).accepted h false [])

/-- WRITE_BASELINE (R31). -/
def execWriteBaseline (ch : Channel) (s : State) : Host.Outcome State Fault Refusal :=
  serve s ch .writeBaseline fun h s => s.writeBaseline h

/-! ### WRITE_PAIR_POLICY -/

/-- The policy that the fourteen words give, with its clamped fields at the nearer end; none when an on/off word or the
verdict queue is not an encoding (R33). -/
def Handed.policy? (h : Handed) : Option Policy :=
  match onOff? (h.word 4), onOff? (h.word 10), queue? (h.word 11) with
  | some normalise, some autoIsolate, some q =>
    some { watchThreshold := h.word 0, degradeThreshold := h.word 1, floorThreshold := h.word 2
           levelMin := clampTo 0 32767 (h.word 3), normalise := normalise, refFloor := clampTo 1 32767 (h.word 5)
           confirmCount := clampTo 1 8 (h.word 6), recoveryDepth := clampTo 1 4 (h.word 7)
           tolerance := clampTo 0 256 (h.word 8), clipLimit := h.word 9, autoIsolate := autoIsolate
           verdictQueue := q, responsePeriods := clampTo 1 16 (h.word 12), busyLimit := clampTo 1 255 (h.word 13) }
  | _, _, _ => none

/-- Some field of the fourteen words is clamped (R33). -/
def Handed.policyClamped (h : Handed) : Bool :=
  outside 0 32767 (h.word 3) || outside 1 32767 (h.word 5) || outside 1 8 (h.word 6) || outside 1 4 (h.word 7)
    || outside 0 256 (h.word 8) || outside 1 16 (h.word 12) || outside 1 255 (h.word 13)

/-- Thresholds in order: 0 < floor < degrade < watch ≤ 1024 (R33). -/
def thresholdsOrdered (watch degrade floor : Nat) : Bool :=
  decide (0 < floor ∧ floor < degrade ∧ degrade < watch ∧ watch ≤ 1024)

/-- A watch point after a change of normalise (R34). -/
def WatchPoint.unreferenced (w : WatchPoint) : WatchPoint :=
  { w with baseline := none, deviation := none
           condition := if w.condition = .unobserved then .unobserved else .unreferenced }

/-- The effect of a change of normalise (R34). -/
def State.normaliseChanged (s : State) (p : Pair) : State := s.updateWps p repeaters fun _ w => w.unreferenced

/-- The effect of auto-isolate going off (R35). -/
def State.autoIsolateOff (s : State) (p : Pair) : State :=
  if s.isolationQueue.any (Work.ofPair p) then
    let s := s.withdraw (Work.ofPair p)
    if (s.verdict p).status = .pending then s.setStatus p .notPermitted else s
  else s

/-- A policy stored with the effects of R34 and R35 (R33). -/
def State.storePolicy (s : State) (p : Pair) (v : Policy) : State :=
  let old := s.policy p
  let s := s.setPolicy p v
  let s := if old.normalise ≠ v.normalise then s.normaliseChanged p else s
  if old.autoIsolate && !v.autoIsolate then s.autoIsolateOff p else s

/-- WRITE_PAIR_POLICY (R33). -/
def State.writePairPolicy (s : State) (h : Handed) : State :=
  s.decided h
    [(s.lacksTables h, .notClaimed),
     (s.unfitted h || h.policy?.isNone, .outOfRange),
     (s.busy h.selector, .pairBusy),
     (!thresholdsOrdered (h.word 0) (h.word 1) (h.word 2), .thresholdOrder)]
    ((s.storePolicy h.selector (h.policy?.getD (policyDefault 0))).accepted h h.policyClamped [])

/-- WRITE_PAIR_POLICY (R33, R34, R35). -/
def execWritePairPolicy (ch : Channel) (s : State) : Host.Outcome State Fault Refusal :=
  serve s ch .writePairPolicy fun h s => s.writePairPolicy h

/-! ### SET_QUARANTINE, CLEAR_QUARANTINE -/

/-- A queued isolation entry for (p, h) withdrawn, with the isolation status that goes with it (R36, R37, R42). -/
def State.withdrawTarget (s : State) (p : Pair) (n : Nat) (st : IsolationStatus) : State :=
  if s.isolationQueue.any (Work.ofTarget p n) then (s.withdraw (Work.ofTarget p n)).setStatus p st else s

/-- SET_QUARANTINE (R36). -/
def State.setQuarantine (s : State) (h : Handed) : State :=
  let p := h.selector
  s.decided h (s.housingChecks h)
    (((s.markQuarantine p (h.word 0) (clampTo 0 4 (h.word 1)) (.channel h.channel)).withdrawTarget p (h.word 0)
      .quarantined).accepted h (outside 0 4 (h.word 1)) [])

/-- CLEAR_QUARANTINE (R37). -/
def State.clearQuarantine (s : State) (h : Handed) : State :=
  let p := h.selector
  s.decided h (s.housingChecks h)
    (((s.unmarkQuarantine p (h.word 0) (.channel h.channel)).withdrawTarget p (h.word 0) .cancelled).accepted h
      false [])

/-- SET_QUARANTINE (R36). -/
def execSetQuarantine (ch : Channel) (s : State) : Host.Outcome State Fault Refusal :=
  serve s ch .setQuarantine fun h s => s.setQuarantine h

/-- CLEAR_QUARANTINE (R37). -/
def execClearQuarantine (ch : Channel) (s : State) : Host.Outcome State Fault Refusal :=
  serve s ch .clearQuarantine fun h s => s.clearQuarantine h

end Sys2Proof.Machine
end

