-- ==== Sys2Proof/Machine/Reads.lean ====
section
/-! DEFINITION. The reads of the Table Store, of the Line Sequencer and of the Epoch Counter (R30, R45, R181, R182). -/

namespace Sys2Proof.Machine

/-- A range of housings from `first`, cut short at 192 (R182). -/
def readRange (first count : Nat) : List Nat := housingRange first (min 192 (first + clampTo 1 16 count - 1))

/-- The reply to READ_WATCH_POINTS (R182, R187, R189). -/
def State.watchPointsReply (s : State) (h : Handed) : Reply :=
  let hs := readRange (h.word 0) (h.word 1)
  { status := .accepted, clamped := outside 1 16 (h.word 1), overflow := false
    requested := 1 + 10 * clampTo 1 16 (h.word 1)
    data := word hs.length :: hs.flatMap fun i => (s.wp h.selector i).words i }

/-- The reply to READ_VERDICT: the Verdict Register, then the policy (R182, R189). -/
def State.verdictReply (s : State) (h : Handed) : Reply :=
  .ok ((s.verdict h.selector).words ++ (s.policy h.selector).words)

/-- The reply to a read of the Table Store that names a pair (R30). -/
def State.pairReply (s : State) (h : Handed) : Reply :=
  if h.request = .readVerdict then s.verdictReply h else s.watchPointsReply h

/-- The pair is being evaluated (R30). -/
def State.evaluating (s : State) (p : Pair) : Bool :=
  match s.current with
  | none => false
  | some c => decide (c.work.pair = p) && decide (c.state = .evaluate)

/-- A read of a pair answered at once, or deferred while the pair is in EVALUATE (R30, R174). -/
def State.readPair (s : State) (h : Handed) : State :=
  if s.evaluating h.selector then { s with deferred := s.deferred ++ [h] } else s.answer h (s.pairReply h)

/-- The deferred reads answered, oldest first (R30, R50, R56). -/
def State.answerAll : State → List Handed → State
  | s, [] => s
  | s, h :: rest => State.answerAll (s.answer h (s.pairReply h)) rest

/-- Every deferred read answered with the contents as they now stand (R30). -/
def State.answerDeferred (s : State) : State := ({ s with deferred := [] } : State).answerAll s.deferred

/-- READ_WATCH_POINTS (R182); a range failure is answered before any deferral (log 15). -/
def State.readWatchPoints (s : State) (h : Handed) : State :=
  if s.unfitted h || notHousing (h.word 0) then
    s.answer h (.refusedRead .outOfRange (1 + 10 * clampTo 1 16 (h.word 1)))
  else s.readPair h

/-- READ_VERDICT (R182). -/
def State.readVerdict (s : State) (h : Handed) : State :=
  if s.unfitted h then s.answer h (.refusal .outOfRange) else s.readPair h

/-- READ_WATCH_POINTS (R182). -/
def execReadWatchPoints (ch : Channel) (s : State) : Host.Outcome State Fault Refusal :=
  serve s ch .readWatchPoints fun h s => s.readWatchPoints h

/-- READ_VERDICT (R182). -/
def execReadVerdict (ch : Channel) (s : State) : Host.Outcome State Fault Refusal :=
  serve s ch .readVerdict fun h s => s.readVerdict h

/-- The words of a Housing Table entry; entry 0 carries the reference lag (R182, R189). -/
def State.housingWords (s : State) (n : Nat) : List Word :=
  if n = 0 then referenceWords s.lineSetup.refLag else (s.housing n).words n

/-- The reply to READ_HOUSING (R182, R187, R189). -/
def State.housingReply (s : State) (h : Handed) : Reply :=
  let hs := readRange (h.word 0) (h.word 1)
  { status := .accepted, clamped := outside 1 16 (h.word 1), overflow := false
    requested := 1 + 3 * clampTo 1 16 (h.word 1)
    data := word hs.length :: hs.flatMap s.housingWords }

/-- READ_HOUSING (R182). -/
def State.readHousing (s : State) (h : Handed) : State :=
  if notHousing (h.word 0) then s.answer h (.refusedRead .outOfRange (1 + 3 * clampTo 1 16 (h.word 1)))
  else s.answer h (s.housingReply h)

/-- READ_HOUSING (R182). -/
def execReadHousing (ch : Channel) (s : State) : Host.Outcome State Fault Refusal :=
  serve s ch .readHousing fun h s => s.readHousing h

/-- The six words of READ_LINE_STATE (R45, R181, R188). -/
def State.lineStateWords (s : State) : List Word :=
  [word (lineStateCode (s.current.map (·.state))), word (orFFFF (s.current.map (·.work.tag.toNat))),
   word (orFFFF (s.busyPair.map (·.val))), word s.workQueue.length, word s.isolationQueue.length,
   word (orFFFF (s.position.map (·.val)))]

/-- READ_LINE_STATE (R45, R181). -/
def execReadLineState (ch : Channel) (s : State) : Host.Outcome State Fault Refusal :=
  serve s ch .readLineState fun h s => s.answer h (.ok s.lineStateWords)

/-- READ_TIME (R15, R182). -/
def execReadTime (ch : Channel) (s : State) : Host.Outcome State Fault Refusal :=
  serve s ch .readTime fun h s => s.answer h (.ok (timeWords s.epoch))

end Sys2Proof.Machine
end

