-- ==== Sys2Proof/Machine/LineRequests.lean ====
section
/-! DEFINITION. START_SWEEP, SEND_COMMAND, CANCEL_WORK and RESET_LINE (R39, R40, R53 to R56, R115, R181). -/

namespace Sys2Proof.Machine

/-- A Work Queue with no place left (R38). -/
def State.queueFull (s : State) : Bool := decide (Config.workQueueSize ≤ s.workQueue.length)

/-- The caller lacks a claim that a sweep of this kind word needs (R39, R151). -/
def State.lacksSweepClaim (s : State) (h : Handed) : Bool :=
  !s.holds h.channel .line || (decide (sweepKind? (h.word 0) = some .baseline) && !s.holds h.channel .tables)

/-- START_SWEEP (R39). -/
def State.startSweep (s : State) (h : Handed) : State :=
  s.decided h
    [(s.lacksSweepClaim h, .notClaimed),
     (s.unfitted h || (sweepKind? (h.word 0)).isNone, .outOfRange),
     (s.queueFull, .queueFull)]
    ((s.enqueue (.channel h.channel) h.selector
        (.sweep ((sweepKind? (h.word 0)).getD .monitor) (clampTo 1 1024 (h.word 1)))).answer h
      (.okClamped (outside 1 1024 (h.word 1)) [word s.nextTag.toNat]))

/-- START_SWEEP (R39). -/
def execStartSweep (ch : Channel) (s : State) : Host.Outcome State Fault Refusal :=
  serve s ch .startSweep fun h s => s.startSweep h

/-- SEND_COMMAND (R40). -/
def State.sendCommand (s : State) (h : Handed) : State :=
  s.decided h
    [(!s.holds h.channel .line, .notClaimed),
     (s.unfitted h || notHousing (h.word 0) || (operation? (h.word 1)).isNone, .outOfRange),
     (s.queueFull, .queueFull)]
    ((s.enqueue (.channel h.channel) h.selector
        (.command (h.word 0) ((operation? (h.word 1)).getD .mark) (clampTo 1 4 (h.word 2)))).answer h
      (.okClamped (outside 1 4 (h.word 2)) [word s.nextTag.toNat]))

/-- SEND_COMMAND (R40). -/
def execSendCommand (ch : Channel) (s : State) : Host.Outcome State Fault Refusal :=
  serve s ch .sendCommand fun h s => s.sendCommand h

/-- A piece of work with that tag (R53). -/
def Work.hasTag (n : Nat) (w : Work) : Bool := decide (w.tag.toNat = n)

/-- The current work, when it holds the tag (R53). -/
def State.currentByTag (s : State) (n : Nat) : Option Current := s.current.filter fun c => c.work.hasTag n

/-- The work that holds a tag: current, in the Work Queue, or in the Isolation Queue (R53, log 28). -/
def State.workByTag (s : State) (n : Nat) : Option Work :=
  match s.currentByTag n with
  | some c => some c.work
  | none => (s.workQueue ++ s.isolationQueue).find? (Work.hasTag n)

/-- The caller may cancel work of that origin (R53, step 3). -/
def State.mayCancel (s : State) (ch : Channel) (w : Work) : Bool :=
  decide (w.origin = .channel ch) || s.holds ch .line

/-- The current sweep with that tag is in EVALUATE (R53, step 4). -/
def State.tooLate (s : State) (n : Nat) : Bool :=
  match s.currentByTag n with
  | none => false
  | some c => decide (c.state = .evaluate)

/-- Queued work removed with its CANCELLED record; an automatic entry sets the isolation status (R53). -/
def State.cancelQueued (s : State) (n : Nat) (w : Work) : State :=
  let s := { s with workQueue := s.workQueue.eraseP (Work.hasTag n)
                    isolationQueue := s.isolationQueue.eraseP (Work.hasTag n) }
  let s := s.postCancelled w
  if w.origin = .auto then s.setStatus w.pair .cancelled else s

/-- Work cancelled, current or queued (R53, R54, R55). -/
def State.cancelByTag (s : State) (n : Nat) : State :=
  match s.currentByTag n with
  | some c => s.abort c
  | none =>
    match (s.workQueue ++ s.isolationQueue).find? (Work.hasTag n) with
    | some w => s.cancelQueued n w
    | none => s

/-- The caller has no authority over the work with that tag (R53, step 3). -/
def State.lacksAuthority (s : State) (h : Handed) : Bool :=
  match s.workByTag (h.word 0) with
  | none => false
  | some w => !s.mayCancel h.channel w

/-- CANCEL_WORK (R53). -/
def State.cancelWork (s : State) (h : Handed) : State :=
  s.decided h
    [(outside 0 255 (h.word 0), .outOfRange),
     ((s.workByTag (h.word 0)).isNone, .noSuchWork),
     (s.lacksAuthority h, .notClaimed),
     (s.tooLate (h.word 0), .tooLate)]
    ((s.cancelByTag (h.word 0)).answer h (.ok []))

/-- CANCEL_WORK (R53). -/
def execCancelWork (ch : Channel) (s : State) : Host.Outcome State Fault Refusal :=
  serve s ch .cancelWork fun h s => s.cancelWork h

/-- The VERDICT_CLEARED record of a confirmed verdict (R104, R114, R115). -/
def State.postCleared (s : State) (p : Pair) (cause : ClearCause) : State :=
  match (s.verdict p).confirmed with
  | none => s
  | some v => s.postVerdict p (.verdictCleared p v cause)

/-- The Verdict Registers of a list of pairs cleared, in order (R115). -/
def State.clearVerdicts : State → List Pair → State
  | s, [] => s
  | s, p :: rest => State.clearVerdicts ((s.postCleared p .lineReset).setVerdict p (verdictDefault p.val)) rest

/-- Step 1 of RESET_LINE: the current work aborted (R56). -/
def State.abortCurrent (s : State) : State :=
  match s.current with
  | none => s
  | some c => s.abort c

/-- Steps 2 and 3 of RESET_LINE: both queues emptied, the Work Queue with records (R56). -/
def State.emptyQueues (s : State) : State :=
  ({ s with workQueue := [], isolationQueue := [] } : State).postCancelledAll s.workQueue

/-- The action of RESET_LINE (R56, R10, R115), with the deferred reads answered as the registers now stand (R30). -/
def State.lineReset (s : State) : State :=
  let s := s.abortCurrent.emptyQueues.clearVerdicts allPairs
  ({ s with position := none, requested := none, settleTimer := none } : State).answerDeferred

/-- RESET_LINE (R56). -/
def State.resetLine (s : State) (h : Handed) : State :=
  s.decided h [(!s.holds h.channel .line, .notClaimed)] (s.lineReset.answer h (.ok []))

/-- RESET_LINE (R56). -/
def execResetLine (ch : Channel) (s : State) : Host.Outcome State Fault Refusal :=
  serve s ch .resetLine fun h s => s.resetLine h

end Sys2Proof.Machine
end

