-- ==== Sys2Proof/Machine/LineWork.lean ====
section
/-! DEFINITION. The take, the selector's confirm and faults, and receiver loss of signal (R8, R9, R13, R44 to R48). -/

namespace Sys2Proof.Machine

/-- Work waiting is taken (R44). -/
def State.take (s : State) : State :=
  match s.nextWork with
  | none => s
  | some (w, s) => s.begin w

/-- The start checks of work that stands in START_CHECKS (R44, R46, R47). -/
def State.checkStart (s : State) : State :=
  match s.current with
  | none => s
  | some c => if c.state = .startChecks then s.startChecks c else s

/-- TAKE_WORK (R44): the head of the Isolation Queue, or else of the Work Queue, is taken in IDLE. With `checks` the start
checks follow in the same step; a step that stopped in START_CHECKS is completed by the next (log 5). -/
def execTakeWork (checks : Bool) (s : State) : Host.Outcome State Fault Refusal :=
  live s fun s =>
    let s := if s.current = none then s.take else s
    if checks then s.checkStart else s

/-- SELECTOR_CONFIRM (R8): the confirm flag is asserted with a code. -/
def execSelectorConfirm (code : Pair) (s : State) : Host.Outcome State Fault Refusal :=
  if s.resetAsserted then .next { s with confirmInput := some code } else .next (s.confirmShows (some code))

/-- SELECTOR_SETTLE_EXPIRY (R8): in SELECT, at the end of a millisecond at which the limit has passed, the work ends with
SELECTOR_FAULT. No later millisecond ends before it (`execEpochTick`, log 23). -/
def execSelectorSettleExpiry (s : State) : Host.Outcome State Fault Refusal := live s State.settleEnds

/-- LOSS_OF_POSITION (R9): the confirm input shows something else, or its flag has dropped. -/
def execLossOfPosition (input : Option Pair) (s : State) : Host.Outcome State Fault Refusal :=
  if s.resetAsserted then .next { s with confirmInput := input } else .next (s.confirmShows input)

/-- States in which the probe is on the line (R6, R13). -/
def LineState.onLine : LineState → Bool
  | .settle | .integrate | .commandTx | .responseWait | .busyWait | .responseRx => true
  | .startChecks | .select | .evaluate => false

/-- The current work has the probe on the line. -/
def State.onLine (s : State) : Bool :=
  match s.current with
  | none => false
  | some c => c.state.onLine

/-- RECEIVER_LOS (R13): the input is a level; asserted, it ends work that has the probe on the line. -/
def execReceiverLos (asserted : Bool) (s : State) : Host.Outcome State Fault Refusal :=
  let s := { s with losInput := asserted }
  live s fun s => if asserted && s.onLine then s.losEnds else s

end Sys2Proof.Machine
end

