-- ==== Sys2Proof/Machine/Localiser.lean ====
section
/-! DEFINITION. The evaluation: watch point actions, the scan, the Verdict Register, isolation, and the evaluation's end
(chapters 5 and 6, R50). -/

namespace Sys2Proof.Machine

/-- An action of the evaluation in progress, at its stage (R94, R115); at any other moment there is no such event and
nothing changes (log 2). -/
def State.atStage (s : State) (stage : EvalStage) (act : Current → Evaluation → State) : State :=
  match s.current, s.evaluation with
  | some c, some e => if c.state = .evaluate ∧ e.stage = stage then act c e else s
  | _, _ => s

/-! ### Watch point actions -/

/-- A segment's saturated flag (R66). -/
def State.segmentSaturated (s : State) (g : Segment) : Bool :=
  g.cells.any fun k => (Memory.read cellDefault s.cells k).marked

/-- What the Level Arithmetic Unit finds in a segment (R80, R81). -/
structure Measure where
  level     : Nat
  offset    : Nat
  edge      : Bool
  saturated : Bool
deriving DecidableEq, Repr

/-- The measure of a segment (R80, R81, R66, R88). -/
def State.measure (s : State) (g : Segment) (periods len : Nat) : Measure :=
  let x := peak (s.cellValues g)
  { level := levelOf x.1 periods len, offset := x.2, edge := edgeOf x.2 g.width, saturated := s.segmentSaturated g }

/-- The fields every watch point action writes (R82, R83, R86, R87, R92). -/
def WatchPoint.measured (w : WatchPoint) (m : Measure) (now : Time) : WatchPoint :=
  { w with level := some m.level, offset := m.offset, edge := m.edge, saturated := m.saturated, updated := now }

/-- The reference level is below the floor (R79, R83). -/
def refTooLow (p : Policy) (level : Nat) : Bool := p.normalise && decide (level < p.refFloor)

/-- The reference watch point after its action (R82, R83). -/
def referenceAfter (p : Policy) (m : Measure) (now : Time) (w : WatchPoint) : WatchPoint :=
  if refTooLow p m.level then w.measured m now
  else { w.measured m now with norm := some (normOf p.normalise m.level m.level) }

/-- One more action done, and no segments left when the reference is lost (R78, R83). -/
def Evaluation.counted (e : Evaluation) (m : Measure) : Evaluation :=
  { e with remaining := e.remaining.tail, evaluated := e.evaluated + 1, saturated := e.saturated + m.saturated.toNat }

/-- The evaluation after the reference segment (R82, R83). -/
def Evaluation.afterReference (e : Evaluation) (m : Measure) : Evaluation :=
  if refTooLow e.policy m.level then { e.counted m with remaining := [], refLevel := m.level, refLost := true }
  else { e.counted m with refLevel := m.level }

/-- A housing watch point after a completed BASELINE action (R92). -/
def captured (p : Policy) (m : Measure) (norm : Nat) (w : WatchPoint) : WatchPoint :=
  if m.saturated then { w with deviation := deviationOf norm w.baseline }
  else if p.levelMin ≤ m.level then
    { w with baseline := some (max 1 norm), deviation := some 1024, condition := .normal }
  else { w with baseline := none, deviation := none, condition := .absent }

/-- A housing watch point after a classifying action: MONITOR, or degraded BASELINE (R86, R87, R90, R93). -/
def classified (p : Policy) (m : Measure) (norm : Nat) (w : WatchPoint) : WatchPoint :=
  { w with
    deviation := deviationOf norm w.baseline
    condition := if m.saturated then w.condition else classify p m.level (deviationOf norm w.baseline) }

/-- Tracking applies (R89). -/
def tracks (kind : SweepKind) (degraded : Bool) (m : Measure) (w : WatchPoint) : Bool :=
  decide (kind = .monitor) && !degraded && w.tracking && !m.saturated
    && (decide (w.condition = .normal) || decide (w.condition = .watch))

/-- A housing watch point after its action, apart from tracking (R84 to R87, R90, R92, R93). -/
def housingAfter (e : Evaluation) (kind : SweepKind) (m : Measure) (now : Time) (w : WatchPoint) : WatchPoint :=
  let norm := normOf e.policy.normalise m.level e.refLevel
  let w := { w.measured m now with norm := some norm }
  if kind = .baseline ∧ e.degraded = false then captured e.policy m norm w else classified e.policy m norm w

/-- A watch point with its centre lag moved, where tracking applies (R89). -/
def State.tracked (s : State) (c : Current) (e : Evaluation) (g : Segment) (m : Measure) (w : WatchPoint) : WatchPoint :=
  if tracks c.work.sweepKind e.degraded m w then
    { w with centre := movedLag (s.template w.template) (s.nominalLag g.housing) c.len g.centre m.offset }
  else w

/-- The CONDITION_CHANGE record of an action, when one is due (R91). -/
def State.postChange (s : State) (p : Pair) (h : Nat) (old new : WatchPoint) : State :=
  if old.condition ≠ new.condition ∧ old.quarantine = none then
    s.post new.queue (.conditionChange p h old.condition new.condition (orZero new.level) new.deviation)
  else s

/-- The action on the reference segment (R82, R83). -/
def State.referenceAction (s : State) (c : Current) (e : Evaluation) (g : Segment) : State :=
  let m := s.measure g c.work.periods c.len
  { s.setWp c.work.pair 0 (referenceAfter e.policy m s.epoch (s.wp c.work.pair 0)) with
    evaluation := some ((e.afterReference m).settleStage c.work.sweepKind) }

/-- The action on a housing segment (R78, R84 to R93). -/
def State.housingAction (s : State) (c : Current) (e : Evaluation) (g : Segment) : State :=
  let p := c.work.pair
  let m := s.measure g c.work.periods c.len
  let old := s.wp p g.housing
  let new := s.tracked c e g m (housingAfter e c.work.sweepKind m s.epoch old)
  { (s.setWp p g.housing new).postChange p g.housing old new with
    evaluation := some ((e.counted m).settleStage c.work.sweepKind) }

/-- WATCH_POINT_ACTION (R78): the next segment. -/
def execWatchPointAction (s : State) : Host.Outcome State Fault Refusal :=
  live s fun s => s.atStage .segments fun c e =>
    match e.remaining with
    | [] => s
    | g :: _ => if g.housing = 0 then s.referenceAction c e g else s.housingAction c e g

/-! ### The scan and confirmation -/

/-- The observed list of a pair (R97). -/
def State.observedList (s : State) (p : Pair) : List Item :=
  (repeaters.filter fun h => (s.wp p h).enabled && (s.wp p h).condition.observed).map fun h =>
    ⟨h, (s.wp p h).condition, (s.wp p h).deviation⟩

/-- The quarantined housings of a pair with their skip depths (R98). -/
def State.marks (s : State) (p : Pair) : List (Nat × Nat) :=
  repeaters.filterMap fun h => (s.wp p h).quarantine.map fun d => (h, d)

/-- The candidate of a pair's scan (R96). -/
def State.scan (s : State) (p : Pair) (policy : Policy) : Option Verdict :=
  candidateOf policy (s.observedList p) (s.marks p)

/-- The register after the streak update (R103). -/
def VerdictRegister.streakAfter (v : VerdictRegister) (candidate : Option Verdict) : VerdictRegister :=
  if v.candidate = candidate then { v with streak := min 15 (v.streak + 1) }
  else { v with candidate := candidate, streak := 1 }

/-- What follows the streak update (R104, R112). -/
def VerdictRegister.nextStage (v : VerdictRegister) (confirmCount : Nat) : EvalStage :=
  if confirmCount ≤ v.streak ∧ v.candidate ≠ v.confirmed then
    (if v.confirmed = none then .replacement else .clearing)
  else if v.status = .swapped then .escalation
  else .finished

/-- The evaluation at another stage. -/
def State.toStage (s : State) (e : Evaluation) (stage : EvalStage) : State :=
  { s with evaluation := some { e with stage := stage } }

/-- STREAK_UPDATE (R96, R103). -/
def execStreakUpdate (s : State) : Host.Outcome State Fault Refusal :=
  live s fun s => s.atStage .streak fun c e =>
    let p := c.work.pair
    let v := (s.verdict p).streakAfter (s.scan p e.policy)
    (s.setVerdict p v).toStage e (v.nextStage e.policy.confirmCount)

/-- VERDICT_CLEARING (R104, step 1). -/
def execVerdictClearing (s : State) : Host.Outcome State Fault Refusal :=
  live s fun s => s.atStage .clearing fun c e => (s.postCleared c.work.pair .replaced).toStage e .replacement

/-- The register after replacement (R104, steps 2 and 3). -/
def VerdictRegister.replaced (v : VerdictRegister) : VerdictRegister :=
  match v.candidate with
  | none => { v with confirmed := none, raised := 0, status := .notApplicable, postSwap := 0 }
  | some x => { v with confirmed := some x }

/-- VERDICT_REPLACEMENT (R104), with the withdrawal of any queued entry of the pair (R42). -/
def execVerdictReplacement (s : State) : Host.Outcome State Fault Refusal :=
  live s fun s => s.atStage .replacement fun c e =>
    let p := c.work.pair
    let v := (s.verdict p).replaced
    ((s.setVerdict p v).withdraw (Work.ofPair p)).toStage e (if v.confirmed = none then .finished else .raising)

/-- A confirmed verdict raised (R105, R118). -/
def State.raise (s : State) (p : Pair) (x : Verdict) : State :=
  ((s.setVerdict p { s.verdict p with raised := s.epoch, postSwap := 0 }).postVerdict p
    (.verdictRaised p x)).alarmVerdict p

/-- VERDICT_RAISE (R105). -/
def execVerdictRaise (s : State) : Host.Outcome State Fault Refusal :=
  live s fun s => s.atStage .raising fun c e =>
    match (s.verdict c.work.pair).confirmed with
    | none => s.toStage e .finished
    | some x => (s.raise c.work.pair x).toStage e .isolation

/-! ### Isolation -/

/-- A swap can be placed: the housing is capable and its pump is PRIMARY or UNKNOWN (R106). -/
def State.canSwap (s : State) (p : Pair) (h : Nat) : Bool :=
  (s.housing h).swapCapable && decide ((s.wp p h).pump ≠ .secondary)

/-- A housing set aside automatically (R106, R107, R108, R112). -/
def State.setAside (s : State) (p : Pair) (h depth : Nat) : State :=
  (s.markQuarantine p h depth .auto).setStatus p .quarantined

/-- The isolation start of a raised verdict (R106, R107). -/
def State.startIsolation (s : State) (p : Pair) (x : Verdict) : State :=
  match x.kind with
  | .amplifierDegraded =>
    if !s.autoPermitted (s.policy p) then s.setStatus p .notPermitted
    else if s.canSwap p x.lead then (s.placeIsolation p x.lead).setStatus p .pending
    else s.setAside p x.lead (s.policy p).recoveryDepth
  | .loopbackFault =>
    if !s.autoPermitted (s.policy p) then s.setStatus p .notPermitted else s.setAside p x.lead 0
  | .sectionOpen | .sectionExcessLoss | .unresolved => s.setStatus p .notApplicable

/-- ISOLATION_START (R106, R107). -/
def execIsolationStart (s : State) : Host.Outcome State Fault Refusal :=
  live s fun s => s.atStage .isolation fun c e =>
    match (s.verdict c.work.pair).confirmed with
    | none => s.toStage e .finished
    | some x => (s.startIsolation c.work.pair x).toStage e .finished

/-- The post-swap count rises, and at C the swap has failed (R112). -/
def State.escalate (s : State) (p : Pair) (policy : Policy) : State :=
  let v := { s.verdict p with postSwap := (s.verdict p).postSwap + 1 }
  let s := s.setVerdict p v
  if policy.confirmCount ≤ v.postSwap then
    match v.confirmed with
    | none => s
    | some x =>
      if s.autoPermitted policy then s.setAside p x.lead policy.recoveryDepth else s.setStatus p .failed
  else s

/-- POST_SWAP_ESCALATION (R112). -/
def execPostSwapEscalation (s : State) : Host.Outcome State Fault Refusal :=
  live s fun s => s.atStage .escalation fun c e => (s.escalate c.work.pair e.policy).toStage e .finished

/-- BASELINE_VERDICT_CLEARING (R92, R114), with the withdrawal of any queued entry of the pair (R42). -/
def execBaselineVerdictClearing (s : State) : Host.Outcome State Fault Refusal :=
  live s fun s => s.atStage .rebaseline fun c e =>
    let p := c.work.pair
    (((s.postCleared p .rebaselined).setVerdict p (verdictDefault p.val)).withdraw (Work.ofPair p)).toStage e .finished

/-! ### The end of the evaluation -/

/-- The outcome of an evaluation (R79). -/
def Evaluation.outcome (e : Evaluation) : WorkOutcome :=
  if e.refLost then .referenceLost else if e.degraded then .degradedInput else .completed

/-- EVALUATION_DONE (R50, R71, R94): the record, the return to IDLE, the deferred reads. -/
def execEvaluationDone (s : State) : Host.Outcome State Fault Refusal :=
  live s fun s => s.atStage .finished fun c e =>
    (s.sweepEnds c.work c.work.sweepKind e.outcome e.evaluated e.saturated).answerDeferred

end Sys2Proof.Machine
end

