-- ==== Sys2Proof/Machine/Reports.lean ====
section
/-! DEFINITION. The Report Unit: BIND_QUEUE and READ_QUEUE (chapter 9). -/

namespace Sys2Proof.Machine

/-- The home-queue map after a binding with make-home (R157). -/
def State.makeHome (s : State) (q : RQ) (c : Option Channel) (home : Bool) : State :=
  match c with
  | some ch => if home then { s with homes := PerChannel.set s.homes ch q } else s
  | none => s

/-- A queue bound (R157). -/
def State.bind (s : State) (q : RQ) (c : Option Channel) : State :=
  { s with queues := PerQueue.set s.queues q { PerQueue.get s.queues q with binding := c } }

/-- BIND_QUEUE with its encoded words read; an undefined word, or make-home with NONE, is out of range (R157). -/
def State.bindQueue (s : State) (h : Handed) : State :=
  match s.holds h.channel .tables, queue? (h.word 0), binding? (h.word 1), onOff? (h.word 2) with
  | false, _, _, _ => s.answer h (.refusal .notClaimed)
  | true, some q, some c, some home =>
    if c = none ∧ home = true then s.answer h (.refusal .outOfRange)
    else ((s.bind q c).makeHome q c home).answer h (.ok [word (ownerCode (PerQueue.get s.queues q).binding)])
  | true, _, _, _ => s.answer h (.refusal .outOfRange)

/-- BIND_QUEUE (R157). -/
def execBindQueue (ch : Channel) (s : State) : Host.Outcome State Fault Refusal :=
  serve s ch .bindQueue fun h s => s.bindQueue h

/-- A queue after `n` records have left its head, with its marker reported and cleared (R162, R163). -/
def ReportQueue.afterRead (q : ReportQueue) (n : Nat) : ReportQueue :=
  { q with records := q.records.drop n, overflow := false }

/-- The reply to an accepted READ_QUEUE (R162, R163, R182, R187, R190). -/
def ReportQueue.readReply (q : ReportQueue) (count : Nat) : Reply :=
  let n := clampTo 1 16 count
  { status := .accepted, clamped := outside 1 16 count, overflow := q.overflow, requested := 2 + 10 * n
    data := [word (q.records.take n).length, word (q.records.drop n).length]
      ++ (q.records.take n).flatMap Record.words }

/-- A queue bound to a channel other than the caller (R162). -/
def ReportQueue.notBound (q : ReportQueue) (ch : Channel) : Bool :=
  decide (q.binding ≠ none) && decide (q.binding ≠ some ch)

/-- READ_QUEUE (R162, R163): the records leave the queue when the request is taken. -/
def State.readQueue (s : State) (h : Handed) : State :=
  let requested := 2 + 10 * clampTo 1 16 (h.word 1)
  match queue? (h.word 0) with
  | none => s.answer h (.refusedRead .outOfRange requested)
  | some q =>
    if (PerQueue.get s.queues q).notBound h.channel then s.answer h (.refusedRead .notBound requested)
    else
      ({ s with queues := PerQueue.set s.queues q
                  ((PerQueue.get s.queues q).afterRead (clampTo 1 16 (h.word 1))) } : State).answer h
        ((PerQueue.get s.queues q).readReply (h.word 1))

/-- READ_QUEUE (R162). -/
def execReadQueue (ch : Channel) (s : State) : Host.Outcome State Fault Refusal :=
  serve s ch .readQueue fun h s => s.readQueue h

end Sys2Proof.Machine
end

