-- ==== Sys2Proof/Machine/Dispatch.lean ====
section
/-! DEFINITION. The dispatch of a command to its meaning, one arm per constructor. -/

namespace Sys2Proof.Machine

def exec (i : Instr) (s : State) : Host.Outcome State Fault Refusal :=
  match i with
  | .resetAssert => Sys2Proof.Machine.execResetAssert s
  | .resetRelease straps => Sys2Proof.Machine.execResetRelease straps s
  | .epochTick => Sys2Proof.Machine.execEpochTick s
  | .presenceLoss ch before => Sys2Proof.Machine.execPresenceLoss ch before s
  | .presenceReturn ch => Sys2Proof.Machine.execPresenceReturn ch s
  | .functionWord ch w => Sys2Proof.Machine.execFunctionWord ch w s
  | .parameterWord ch w => Sys2Proof.Machine.execParameterWord ch w s
  | .strayWord ch w => Sys2Proof.Machine.execStrayWord ch w s
  | .shortParameters ch => Sys2Proof.Machine.execShortParameters ch s
  | .answerTaken ch => Sys2Proof.Machine.execAnswerTaken ch s
  | .replyWordRead ch => Sys2Proof.Machine.execReplyWordRead ch s
  | .replyAbandoned ch => Sys2Proof.Machine.execReplyAbandoned ch s
  | .claim ch => Sys2Proof.Machine.execClaim ch s
  | .claimIfClean ch => Sys2Proof.Machine.execClaimIfClean ch s
  | .check ch => Sys2Proof.Machine.execCheck ch s
  | .takeover ch => Sys2Proof.Machine.execTakeover ch s
  | .release ch => Sys2Proof.Machine.execRelease ch s
  | .writeLineSetup ch => Sys2Proof.Machine.execWriteLineSetup ch s
  | .writeHousing ch => Sys2Proof.Machine.execWriteHousing ch s
  | .writeTemplate ch => Sys2Proof.Machine.execWriteTemplate ch s
  | .writeWatchPoint ch => Sys2Proof.Machine.execWriteWatchPoint ch s
  | .enableWatchPoints ch => Sys2Proof.Machine.execEnableWatchPoints ch s
  | .disableWatchPoints ch => Sys2Proof.Machine.execDisableWatchPoints ch s
  | .writeBaseline ch => Sys2Proof.Machine.execWriteBaseline ch s
  | .writePairPolicy ch => Sys2Proof.Machine.execWritePairPolicy ch s
  | .setQuarantine ch => Sys2Proof.Machine.execSetQuarantine ch s
  | .clearQuarantine ch => Sys2Proof.Machine.execClearQuarantine ch s
  | .bindQueue ch => Sys2Proof.Machine.execBindQueue ch s
  | .startSweep ch => Sys2Proof.Machine.execStartSweep ch s
  | .sendCommand ch => Sys2Proof.Machine.execSendCommand ch s
  | .cancelWork ch => Sys2Proof.Machine.execCancelWork ch s
  | .resetLine ch => Sys2Proof.Machine.execResetLine ch s
  | .readQueue ch => Sys2Proof.Machine.execReadQueue ch s
  | .readWatchPoints ch => Sys2Proof.Machine.execReadWatchPoints ch s
  | .readHousing ch => Sys2Proof.Machine.execReadHousing ch s
  | .readVerdict ch => Sys2Proof.Machine.execReadVerdict ch s
  | .readClaims ch => Sys2Proof.Machine.execReadClaims ch s
  | .readLineState ch => Sys2Proof.Machine.execReadLineState ch s
  | .readTime ch => Sys2Proof.Machine.execReadTime ch s
  | .readAlarms ch => Sys2Proof.Machine.execReadAlarms ch s
  | .ackAlarm ch => Sys2Proof.Machine.execAckAlarm ch s
  | .clearPort ch => Sys2Proof.Machine.execClearPort ch s
  | .takeWork checks => Sys2Proof.Machine.execTakeWork checks s
  | .selectorConfirm code => Sys2Proof.Machine.execSelectorConfirm code s
  | .selectorSettleExpiry => Sys2Proof.Machine.execSelectorSettleExpiry s
  | .lossOfPosition input => Sys2Proof.Machine.execLossOfPosition input s
  | .receiverLos asserted => Sys2Proof.Machine.execReceiverLos asserted s
  | .settlePeriodEnd => Sys2Proof.Machine.execSettlePeriodEnd s
  | .integratePeriodEnd => Sys2Proof.Machine.execIntegratePeriodEnd s
  | .integrateComplete => Sys2Proof.Machine.execIntegrateComplete s
  | .watchPointAction => Sys2Proof.Machine.execWatchPointAction s
  | .streakUpdate => Sys2Proof.Machine.execStreakUpdate s
  | .verdictClearing => Sys2Proof.Machine.execVerdictClearing s
  | .verdictReplacement => Sys2Proof.Machine.execVerdictReplacement s
  | .verdictRaise => Sys2Proof.Machine.execVerdictRaise s
  | .isolationStart => Sys2Proof.Machine.execIsolationStart s
  | .postSwapEscalation => Sys2Proof.Machine.execPostSwapEscalation s
  | .baselineVerdictClearing => Sys2Proof.Machine.execBaselineVerdictClearing s
  | .evaluationDone => Sys2Proof.Machine.execEvaluationDone s
  | .frameBitPeriodEnd => Sys2Proof.Machine.execFrameBitPeriodEnd s
  | .frameEnd => Sys2Proof.Machine.execFrameEnd s
  | .roundTripEnd => Sys2Proof.Machine.execRoundTripEnd s
  | .intervalClassified => Sys2Proof.Machine.execIntervalClassified s
  | .busyTimeout => Sys2Proof.Machine.execBusyTimeout s
  | .sampleStrobe sample => Sys2Proof.Machine.execSampleStrobe sample s

end Sys2Proof.Machine
end

