-- ==== Sys2Proof/Machine/Step.lean ====
section
/-! DEFINITION. A step of the part, and how the host puts a command in front of the queue. -/

namespace Sys2Proof.Machine

/-- One step: the command at the front of the queue, carried out on the rest; on an empty queue the part idles
(log 3). -/
def step (s : State) : Host.Outcome State Fault Refusal :=
  match s.pending with
  | [] => .next s
  | c :: rest => exec c { s with pending := rest }

/-- The command that a word spells put in front of the queue; no row of the table gives any bits, so no word spells one
(log 29). -/
def State.withFetchWord (s : State) (nbits w : Nat) : State :=
  match decodeTableWord nbits w with
  | none => s
  | some c => { s with pending := c :: s.pending }

end Sys2Proof.Machine
end

