-- ==== Sys2Proof/Machine/Outputs.lean ====
section
/-! DEFINITION. The outputs of the part as views of its state (R6, R7, R8, R10, R14, R164; log 20). -/

namespace Sys2Proof.Machine

/-- The probe modulator output (R6): `none` is quiet, true is +1. -/
def State.modulator (s : State) : Option Bool := if s.onLine then some s.generator.chip else none

/-- The command tone output (R7, R125): the frame bit being sent, in COMMAND_TX. -/
def State.tone (s : State) : Bool :=
  s.inState .commandTx &&
    match s.cmu.captured with
    | none => false
    | some cap => cap.sequence.getD (s.cmu.bit - 1) false

/-- The selector request lines (R8, R10): `none` is no request. -/
def State.requestLines (s : State) : Option Pair := s.requested

/-- A report queue that drives the attention line of a channel (R164). -/
def ReportQueue.drives (q : ReportQueue) (ch : Channel) : Bool :=
  decide (q.binding = some ch) && !q.records.isEmpty

/-- The attention line of a channel (R164). -/
def State.attention (s : State) (ch : Channel) : Bool :=
  s.queues.rq0.drives ch || s.queues.rq1.drives ch || s.queues.rq2.drives ch || s.queues.rq3.drives ch

end Sys2Proof.Machine
end

