-- ==== Sys2Proof/Safety.lean ====
section
/-! DEFINITION. The terms claims use: when a block takes a request, the reset values of the chapters, and the properties
that every step keeps. -/

namespace Sys2Proof.Machine

/-! ### Words for claims -/

/-- With the reset input released, `h` is the oldest request of that name that the channel has handed over. -/
def State.offers (s : State) (ch : Channel) (r : Request) (h : Handed) : Prop :=
  s.resetAsserted = false ∧ s.handed.find? (Handed.is ch r) = some h

/-- The request is no longer waiting and its answer has been given (R171). -/
def State.served (s : State) (ch : Channel) (r : Request) (h : Handed) (reply : Reply) : State :=
  (s.taken ch r).answer h reply

/-- `t` follows from `s` by a request judged check by check, each check a condition with the status code it answers: the
first condition that holds refuses, the request then changes nothing, and `done` holds where none does (R17). -/
def State.judged (s t : State) (ch : Channel) (r : Request) (h : Handed) (done : Prop) : List (Prop × Status) → Prop
  | [] => done
  | c :: rest => (c.1 → t = s.served ch r h (.refusal c.2)) ∧ (¬ c.1 → State.judged s t ch r h done rest)

/-- Some watch point of housing `n` is enabled. -/
def State.someEnabled (s : State) (n : Nat) : Prop := ∃ p, (s.wp p n).enabled = true

/-- The pair is the busy pair. -/
def State.isBusy (s : State) (p : Pair) : Prop := ∃ c, s.current = some c ∧ c.work.pair = p

/-- The pair is at or above the number of fitted pairs. -/
def State.notFitted (s : State) (p : Pair) : Prop := s.straps.pairsFitted.toNat < p.val

/-- Records posted to one queue, in order (R160, R161). -/
def State.postList (s : State) (q : RQ) (l : List RecordBody) : State := l.foldl (fun s b => s.post q b) s

/-- Records posted each to its queue, in order (R160, R161). -/
def State.postEach (s : State) (l : List (RQ × RecordBody)) : State := l.foldl (fun s b => s.post b.1 b.2) s

/-- The queue that takes the record of a piece of work (R159). -/
def State.workQueueOf (s : State) (w : Work) : RQ :=
  match w.origin with
  | .channel ch => PerChannel.get s.homes ch
  | .auto => (s.policy w.pair).verdictQueue

/-- The CANCELLED record of a queued entry (R53). -/
def Work.cancelledRecord (w : Work) : RecordBody :=
  match w.kind with
  | .sweep k _ => .sweepDone w.tag w.pair k .cancelled 0 0 0
  | .command h op _ => .commandDone w.tag w.origin w.pair h op .cancelled 0 none none

/-- The CANCELLED record of the current work (R54, R55, R56). -/
def State.currentCancelled (s : State) (c : Current) : RecordBody :=
  match c.work.kind with
  | .sweep k _ =>
    match c.state, s.evaluation with
    | .evaluate, some e => .sweepDone c.work.tag c.work.pair k .cancelled e.evaluated e.saturated s.clipCount
    | _, _ => .sweepDone c.work.tag c.work.pair k .cancelled 0 0 s.clipCount
  | .command h op _ =>
    .commandDone c.work.tag c.work.origin c.work.pair h op .cancelled s.cmu.attempt none none

/-- No work is current and the line side rests (R44, R59, R71, R119). R119 gives the phase FREE; the cleared working
values of the Command Unit are the model's (log 16, log 17). -/
def State.lineRests (s : State) : Prop :=
  s.current = none ∧ s.allocation = [] ∧ s.chipTimer = none ∧ s.settleTimer = none ∧ s.cmu = .reset ∧
  s.intervals = [] ∧ s.evaluation = none

/-- The current work is in EVALUATE, with the evaluation at a stage. -/
def State.evaluatingAt (s : State) (stage : EvalStage) (c : Current) (e : Evaluation) : Prop :=
  s.resetAsserted = false ∧ s.current = some c ∧ c.state = .evaluate ∧ s.evaluation = some e ∧ e.stage = stage

/-- The current work is in a state, its chip timer running. -/
def State.runningIn (s : State) (st : LineState) (c : Current) (t : ChipTimer) : Prop :=
  s.resetAsserted = false ∧ s.current = some c ∧ c.state = st ∧ s.chipTimer = some t

/-- In `t`, the watch point (p, n) of `s` is quarantined automatically at a depth: a mark that changes is stamped and
recorded in the pair's verdict queue, a mark that stands already changes nothing, no other watch point changes (R108). -/
def State.autoQuarantined (s t : State) (p : Pair) (n depth : Nat) : Prop :=
  ((s.wp p n).quarantine ≠ some depth →
    t.wp p n = { s.wp p n with quarantine := some depth, updated := s.epoch } ∧
    t.queues = (s.post (s.policy p).verdictQueue (.quarantine p n true depth .auto)).queues) ∧
  ((s.wp p n).quarantine = some depth → t.wp p n = s.wp p n ∧ t.queues = s.queues) ∧
  ∀ q i, i ≤ 192 → (q ≠ p ∨ i ≠ n) → t.wp q i = s.wp q i

/-- `tag` is the first value from `start` on, returning from 255 to 0, that none of the tags held has (R43). -/
def nextFree (held : List (BitVec 8)) (start tag : BitVec 8) : Prop :=
  (∃ k : Nat, tag = start + BitVec.ofNat 8 k ∧ ∀ j < k, start + BitVec.ofNat 8 j ∈ held) ∧
  (held.length < 256 → tag ∉ held)

/-- The work is a command. -/
def Work.isCommand (w : Work) : Bool :=
  match w.kind with
  | .sweep .. => false
  | .command .. => true

/-- The current command has transmitted a frame in full and is a PUMP_SWAP or PUMP_RESTORE (R55, R136). -/
def State.swapSent (s : State) (c : Current) : Prop :=
  c.work.isCommand = true ∧ c.work.operation.busy = true ∧
  (c.state = .responseWait ∨ c.state = .busyWait ∨ c.state = .responseRx ∨ c.state = .commandTx ∧ 2 ≤ s.cmu.attempt)

/-! ### Reset values -/

/-- Every record of the tables of chapter 2 at its reset contents (R1, R18, R22, R24, R25, R32). -/
def State.tablesAtReset (s : State) : Prop :=
  s.lineSetup = { m := 15, k := 2, refLag := 64, settle := 50 } ∧
  (∀ h, 1 ≤ h → h ≤ 192 → s.housing h =
    { present := false, address := 0, lag := 32 + h, bitOrder := .msbFirst, nibbleOrder := .highFirst
      longCapable := false, swapCapable := false }) ∧
  s.template 0 = ⟨8, 2⟩ ∧ s.template 1 = ⟨16, 4⟩ ∧ s.template 2 = ⟨32, 8⟩ ∧ s.template 3 = ⟨64, 16⟩ ∧
  (∀ p h, h ≤ 192 → s.wp p h =
    { template := 1, queue := .rq3, tracking := false, enabled := false, centre := if h = 0 then 64 else 32 + h
      baseline := none, level := none, norm := none, deviation := none, condition := .unobserved, offset := 0
      edge := false, saturated := false, pump := .unknown, quarantine := none, updated := 0 }) ∧
  (∀ p, s.policy p =
    { watchThreshold := 900, degradeThreshold := 700, floorThreshold := 256, levelMin := 16, normalise := true
      refFloor := 32, confirmCount := 3, recoveryDepth := 2, tolerance := 64, clipLimit := 32, autoIsolate := false
      verdictQueue := .rq3, responsePeriods := 4, busyLimit := 60 })

/-- The line side at rest (R8, R10, R12, R14, R41, R43, R58, R59, R119). -/
def State.lineAtReset (s : State) : Prop :=
  s.workQueue = [] ∧ s.isolationQueue = [] ∧ s.current = none ∧ s.position = none ∧ s.tagCounter = 0 ∧
  s.chipTimer = none ∧ s.requested = none ∧ s.settleTimer = none ∧ s.clipCount = 0 ∧ s.allocation = [] ∧
  (∀ k, k < 8192 → Memory.read cellDefault s.cells k = ⟨0, false⟩) ∧ s.evaluation = none ∧
  s.cmu.phase = .free ∧ s.cmu.attempt = 0 ∧ s.cmu.collector = [] ∧ s.cmu.status = none ∧ s.cmu.telemetry = none ∧
  s.modulator = none ∧ s.tone = false ∧ s.requestLines = none

/-- Verdict Registers, report queues, claims and alarms at reset (R102, R116, R141, R153, R155, R156, R164). -/
def State.recordsAtReset (s : State) : Prop :=
  (∀ p, s.verdict p =
    { candidate := none, streak := 0, confirmed := none, raised := 0, status := .notApplicable, postSwap := 0 }) ∧
  s.queues.rq0 = ⟨[], false, some .ch0⟩ ∧ s.queues.rq1 = ⟨[], false, some .ch1⟩ ∧
  s.queues.rq2 = ⟨[], false, some .ch2⟩ ∧ s.queues.rq3 = ⟨[], false, none⟩ ∧
  s.homes = ⟨.rq0, .rq1, .rq2⟩ ∧ (∀ ch, s.attention ch = false) ∧
  s.lineClaim = ⟨none, 0, 0⟩ ∧ s.tablesClaim = ⟨none, 0, 0⟩ ∧
  s.alarms = { verdict := 0, selectorFault := false, receiverLos := false }

/-- Every block at its reset values. -/
def State.atReset (s : State) : Prop :=
  s.epoch = 0 ∧ s.tablesAtReset ∧ s.lineAtReset ∧ s.recordsAtReset

/-- The unit of a channel after the release: IDLE or DISCONNECTED by its presence line, buffers empty, marker clear,
handshake deasserted (R166). -/
def State.unitAtRelease (s : State) (ch : Channel) : Prop :=
  (s.ccu ch).phase = (if PerChannel.get s.presenceLine ch then .idle else .disconnected) ∧
  (s.ccu ch).params = [] ∧ (s.ccu ch).reply = [] ∧ (s.ccu ch).discard = false ∧
  (s.ccu ch).handshake = ⟨false, false, false, false⟩

/-! ### What every step keeps -/

/-- The memories keep their canonical form, the model's way of holding each memory (log 27). -/
def State.memoriesCanonical (s : State) : Prop :=
  Memory.wf housingDefault s.housings = true ∧ Memory.wf templateDefault s.templates = true ∧
  Memory.wf wpDefault s.watchPoints = true ∧ Memory.wf policyDefault s.policies = true ∧
  Memory.wf cellDefault s.cells = true ∧ Memory.wf chipDefault s.chipHistory = true ∧
  Memory.wf verdictDefault s.verdicts = true

/-- A report queue never holds more than 64 records (R160). -/
def State.reportsBounded (s : State) : Prop := ∀ q, (PerQueue.get s.queues q).records.length ≤ 64

/-- The Work Queue holds at most 16 entries (R38), the Isolation Queue at most one for each pair (R41), and no two
pieces of work share a tag (R43). -/
def State.workBounded (s : State) : Prop :=
  s.workQueue.length ≤ 16 ∧ (s.isolationQueue.map (·.pair)).Nodup ∧ s.heldTags.Nodup

/-- The presence view of an owner is PRESENT (R142). -/
def State.ownersPresent (s : State) : Prop :=
  ∀ r ch, (s.claim r).owner = some ch → PerChannel.get s.views ch = true

/-- The phases of the Command Unit that go with a state of the current work, and the work that reaches the state
(section 3.4, R119). That a command in SELECT has the phase CHECK is the model's choice (log 17). -/
def LineState.allows (st : LineState) (w : Work) (phase : CommandPhase) : Bool :=
  match st with
  | .startChecks | .select => decide (phase = if w.isCommand then .checking else .free)
  | .settle | .integrate | .evaluate => !w.isCommand && decide (phase = .free)
  | .commandTx => w.isCommand && decide (phase = .frame)
  | .responseWait => w.isCommand && !w.operation.busy && decide (phase = .roundTrip ∨ phase = .startSearch)
  | .busyWait =>
    w.isCommand && w.operation.busy && decide (phase = .roundTrip ∨ phase = .readySearch ∨ phase = .startSearch)
  | .responseRx => w.isCommand && decide (phase = .data)

/-- The line side agrees with the state of the current work: with none, everything rests (R59, R119); the Command Unit's
phase goes with the state (R119, and in SELECT log 17); the chip timer runs exactly while the probe is on the line (R5,
R6), the settle timer exactly in SELECT and never past its limit (R8, log 23), and an evaluation exists exactly in
EVALUATE (R50). No two segments share a cell (R60). -/
def State.lineConsistent (s : State) : Prop :=
  (s.current = none → s.allocation = [] ∧ s.cmu.phase = .free) ∧
  (∀ c, s.current = some c → c.state.allows c.work s.cmu.phase = true) ∧
  s.chipTimer.isSome = s.onLine ∧ s.settleTimer.isSome = s.inState .select ∧
  (∀ t, s.settleTimer = some t → (s.epoch - t.start).toNat ≤ t.limit) ∧
  s.evaluation.isSome = s.inState .evaluate ∧ (s.allocation.flatMap Segment.cells).Nodup

/-- Automatic work: a PUMP_SWAP with 2 attempts at the housing where the pair's confirmed verdict is
AMPLIFIER_DEGRADED (R41, R113). -/
def State.isolates (s : State) (w : Work) : Prop :=
  w.origin = .auto ∧ ∃ h, w.kind = .command h .pumpSwap 2 ∧ (s.verdict w.pair).confirmed = some ⟨.amplifierDegraded, h⟩

/-- The Isolation Queue holds at most one entry, and automatic work, queued or current, answers the confirmed verdict of
its pair (R41, R113). While a sweep is current, an entry can only be of the sweep's pair. -/
def State.isolationFollows (s : State) : Prop :=
  s.lineConsistent ∧ s.isolationQueue.length ≤ 1 ∧ (∀ w ∈ s.workQueue, w.origin ≠ .auto) ∧
  (∀ w ∈ s.isolationQueue, s.isolates w) ∧
  (∀ c, s.current = some c → c.work.origin = .auto → s.isolates c.work) ∧
  ∀ c, s.current = some c → c.work.isCommand = false → ∀ w ∈ s.isolationQueue, w.pair = c.work.pair

/-- The ranges of the Line Setup (R1). -/
def LineSetup.legal (l : LineSetup) : Prop :=
  11 ≤ l.m ∧ l.m ≤ 15 ∧ l.k ≤ 6 ∧ 32 ≤ l.refLag ∧ l.refLag ≤ seqLength l.m - 33 ∧ 1 ≤ l.settle ∧ l.settle ≤ 255

/-- The ranges of a Window Template (R22). -/
def Template.legal (t : Template) : Prop :=
  t.width % 2 = 0 ∧ 4 ≤ t.width ∧ t.width ≤ 64 ∧ t.trackLimit ≤ t.width / 4

/-- The ranges of a policy record (R32). -/
def Policy.legal (p : Policy) : Prop :=
  0 < p.floorThreshold ∧ p.floorThreshold < p.degradeThreshold ∧ p.degradeThreshold < p.watchThreshold ∧
  p.watchThreshold ≤ 1024 ∧ p.levelMin ≤ 32767 ∧ 1 ≤ p.refFloor ∧ p.refFloor ≤ 32767 ∧ 1 ≤ p.confirmCount ∧
  p.confirmCount ≤ 8 ∧ 1 ≤ p.recoveryDepth ∧ p.recoveryDepth ≤ 4 ∧ p.tolerance ≤ 256 ∧
  1 ≤ p.responsePeriods ∧ p.responsePeriods ≤ 16 ∧ 1 ≤ p.busyLimit ∧ p.busyLimit ≤ 255

/-- The record tables hold only values of their ranges (R1, R22, R32). -/
def State.tablesLegal (s : State) : Prop :=
  s.lineSetup.legal ∧ (∀ t, t < 4 → (s.template t).legal) ∧ ∀ p, (s.policy p).legal

/-- The Housing Table: present entries have a legal address and lag and no two share an address; entries not present are
parked; lags rise strictly with the index, the reference loop first (R18). -/
def State.housingsLegal (s : State) : Prop :=
  (∀ h, 1 ≤ h → h ≤ 192 → (s.housing h).present = true →
    1 ≤ (s.housing h).address ∧ (s.housing h).address ≤ 4094 ∧
    s.lineSetup.refLag < (s.housing h).lag ∧ (s.housing h).lag ≤ s.len - 33) ∧
  (∀ h, 1 ≤ h → h ≤ 192 → (s.housing h).present = false → s.housing h = housingDefault h) ∧
  ∀ h i, 1 ≤ h → h < i → i ≤ 192 → (s.housing h).present = true → (s.housing i).present = true →
    (s.housing h).lag < (s.housing i).lag ∧ (s.housing h).address ≠ (s.housing i).address

/-- The centre lag of a watch point is legal: within nominal lag plus or minus half a template width, and within 32 to
L - 33 (R25). -/
def State.centreLegal (s : State) (p : Pair) (h : Nat) : Prop :=
  (s.wp p h).template < 4 ∧
  s.nominalLag h ≤ (s.wp p h).centre + s.widthOf p h / 2 ∧ (s.wp p h).centre ≤ s.nominalLag h + s.widthOf p h / 2 ∧
  32 ≤ (s.wp p h).centre ∧ (s.wp p h).centre ≤ s.len - 33

/-- A verdict leads at a housing 1 to 192, where there is one (R102). -/
def leadLegal (v : Option Verdict) : Prop := ∀ x, v = some x → 1 ≤ x.lead ∧ x.lead ≤ 192

/-- Work, segments and verdicts name housings of the table, and L is that of the Line Setup (R1, R38, R60, R102). -/
def State.workLegal (s : State) : Prop :=
  (∀ c, s.current = some c → c.len = s.len ∧ c.work.housing ≤ 192) ∧
  (∀ w ∈ s.workQueue, w.housing ≤ 192) ∧ (∀ w ∈ s.isolationQueue, w.housing ≤ 192) ∧
  (∀ g ∈ s.allocation, g.housing ≤ 192) ∧
  (∀ e, s.evaluation = some e → ∀ g ∈ e.remaining, g.housing ≤ 192) ∧
  ∀ p, leadLegal (s.verdict p).candidate ∧ leadLegal (s.verdict p).confirmed

/-- Every centre lag is legal (R25), with what keeps it so. -/
def State.centresLegal (s : State) : Prop :=
  s.tablesLegal ∧ s.housingsLegal ∧ s.workLegal ∧ ∀ p h, h ≤ 192 → s.centreLegal p h

end Sys2Proof.Machine
end

