-- ==== Sys2Proof/Certificates/Slice0/Obligations.lean ====
section
/-! DEFINITION. The statements for the provers, chapter by chapter. Each is about every state; a statement about a command gives
the next state whole, field by field or as one equation. -/

open Sys2Proof Sys2Proof.Machine

/-! ### The step, reset, time and presence -/

/-- For every command and state: a step with the command at the front of the queue is `exec` of it on the queue's rest;
with an empty queue the part idles (the model's choice, log 3). -/
def Obligations.StepRunsFrontCommand : Prop :=
  ∀ s : State,
    (∀ c rest, step { s with pending := c :: rest } = exec c { s with pending := rest }) ∧
    step { s with pending := [] } = .next { s with pending := [] }

/-- No command faults or is refused, and none touches the commands that wait (the model's reading: the manual names no
state in which the part stops; log 2). -/
def Obligations.EveryCommandAnswersNext : Prop :=
  ∀ c s, ∃ t, exec c s = .next t ∧ t.pending = s.pending

/-- `State.reset` holds the reset values the chapters give, whatever the input levels of log 1 are; and what every step keeps
holds there. -/
def Obligations.ResetStateHoldsResetValues : Prop :=
  (State.reset.resetAsserted = false ∧ State.reset.atReset ∧ (∀ ch, State.reset.unitAtRelease ch) ∧
   State.reset.handed = [] ∧ State.reset.answers = [] ∧ State.reset.deferred = [] ∧ State.reset.pending = []) ∧
  (State.reset.memoriesCanonical ∧ State.reset.reportsBounded ∧ State.reset.workBounded ∧ State.reset.ownersPresent ∧
   State.reset.lineConsistent ∧ State.reset.isolationFollows ∧ State.reset.centresLegal)

/-- RESET_ASSERT puts every block at its reset values; RESET_RELEASE leaves them so, samples the straps, and sets phases
and presence views by the presence lines. That requests handed over, answers not taken and deferred reads are gone after
RESET_ASSERT is the model's reading (log 24); the outputs are views of the state (log 20). -/
def Obligations.ResetReturnsEveryBlock : Prop :=
  (∀ s, ∃ t, exec .resetAssert s = .next t ∧ t.resetAsserted = true ∧ t.atReset ∧
    t.handed = [] ∧ t.answers = [] ∧ t.deferred = [] ∧
    (∀ ch, (t.ccu ch).params = [] ∧ (t.ccu ch).reply = [] ∧ (t.ccu ch).discard = false ∧
      (t.ccu ch).handshake = ⟨false, false, false, false⟩) ∧
    t.presenceLine = s.presenceLine ∧ t.losInput = s.losInput ∧ t.confirmInput = s.confirmInput) ∧
  ∀ s straps, s.resetAsserted = true → ∃ t, exec (.resetRelease straps) s = .next t ∧ t.resetAsserted = false ∧
    t.atReset ∧ t.straps = straps ∧ (∀ ch, t.unitAtRelease ch) ∧ t.views = s.presenceLine ∧
    t.presenceLine = s.presenceLine ∧ t.losInput = s.losInput ∧ t.confirmInput = s.confirmInput

/-- The Epoch Counter: reset puts it at 0, and a millisecond adds 1 modulo 2^32. It changes nothing else, but that an expiry
of the settle timer that stands from the millisecond before is taken first, at the count it fell due at (log 23). A
millisecond with the reset input asserted changes nothing (log 22), and no other command writes the count. -/
def Obligations.EpochCounterRule : Prop :=
  (∀ s, s.resetAsserted = false → ∃ t, exec .epochTick s = .next t ∧ t.epoch = s.epoch + 1 ∧
    ((∀ timer, s.inState .select = true → s.settleTimer = some timer → (s.epoch - timer.start).toNat < timer.limit) →
      t = { s with epoch := s.epoch + 1 }) ∧
    ∀ timer, s.inState .select = true → s.settleTimer = some timer → timer.limit ≤ (s.epoch - timer.start).toNat →
      t = { State.endWork { s with position := none, requested := none, settleTimer := none
                                   alarms := { s.alarms with selectorFault := true } } .selectorFault with
            epoch := s.epoch + 1 }) ∧
  (∀ s, s.resetAsserted = true → exec .epochTick s = .next s) ∧
  (∀ s t, exec .resetAssert s = .next t → t.epoch = 0) ∧
  ∀ c s t, exec c s = .next t → c ≠ .epochTick → c ≠ .resetAssert → (∀ straps, c ≠ .resetRelease straps) →
    t.epoch = s.epoch

/-- PRESENCE_LOSS on a connected channel: the unit is DISCONNECTED and empty, the view ABSENT, the channel's claims NONE, its
queued work gone, its deferred reads abandoned, and its home queue has the CANCELLED records in queue order with CLAIM_LOST
for LINE then TABLES after the first `before` of them (the order operand is the model's, log 9); what it had handed over
is marked as taken after the loss (log 31). PRESENCE_RETURN in DISCONNECTED: IDLE with empty buffers, view PRESENT,
nothing restored. Any other rise or fall, and any with the reset input asserted (log 22), changes no more than the line. -/
def Obligations.PresenceMovesTheChannel : Prop :=
  (∀ s ch before, s.resetAsserted = false → (s.ccu ch).phase ≠ .disconnected →
     ∃ t, exec (.presenceLoss ch before) s = .next t ∧
       t.ccu ch = { phase := .disconnected, collecting := none, params := [], reply := [], discard := false
                    reading := false, handshake := ⟨false, false, false, false⟩ } ∧
       PerChannel.get t.views ch = false ∧ PerChannel.get t.presenceLine ch = false ∧
       (∀ r, t.claim r = if (s.claim r).owner = some ch then ⟨none, 0, s.epoch⟩ else s.claim r) ∧
       t.workQueue = s.workQueue.filter (fun w => decide (w.origin ≠ .channel ch)) ∧
       t.deferred = s.deferred.filter (fun h => decide (h.channel ≠ ch)) ∧
       (∀ d, d ≠ ch → t.ccu d = s.ccu d ∧ PerChannel.get t.views d = PerChannel.get s.views d ∧
         PerChannel.get t.presenceLine d = PerChannel.get s.presenceLine d) ∧
       (let cancelled := (s.workQueue.filter fun w => decide (w.origin = .channel ch)).map Work.cancelledRecord
        let lost := (if s.lineClaim.owner = some ch then [RecordBody.claimLost .line ch .presenceLost] else []) ++
          (if s.tablesClaim.owner = some ch then [RecordBody.claimLost .tables ch .presenceLost] else [])
        t.queues = (s.postList (PerChannel.get s.homes ch)
          (cancelled.take before ++ lost ++ cancelled.drop before)).queues) ∧
       t.handed.map (fun h => (h.channel, h.request, h.selector, h.params)) =
         s.handed.map (fun h => (h.channel, h.request, h.selector, h.params)) ∧
       (∀ h ∈ t.handed, h.channel = ch → h.live = false ∧ h.lost = true) ∧
       (∀ a ∈ t.answers, a.channel = ch → a.live = false) ∧
       t.handed.filter (fun h => decide (h.channel ≠ ch)) = s.handed.filter (fun h => decide (h.channel ≠ ch)) ∧
       t.answers.filter (fun a => decide (a.channel ≠ ch)) = s.answers.filter (fun a => decide (a.channel ≠ ch)) ∧
       t = { s with
         presenceLine := t.presenceLine, channels := t.channels, views := t.views, lineClaim := t.lineClaim
         tablesClaim := t.tablesClaim, workQueue := t.workQueue, queues := t.queues, handed := t.handed
         answers := t.answers, deferred := t.deferred }) ∧
  ((∀ s ch, s.resetAsserted = false → (s.ccu ch).phase = .disconnected →
     exec (.presenceReturn ch) s = .next { s with
       presenceLine := PerChannel.set s.presenceLine ch true
       channels := PerChannel.set s.channels ch
         { phase := .idle, collecting := none, params := [], reply := [], discard := false, reading := false
           handshake := ⟨false, false, false, false⟩ }
       views := PerChannel.set s.views ch true }) ∧
   (∀ s ch, (s.ccu ch).phase ≠ .disconnected →
     exec (.presenceReturn ch) s = .next { s with presenceLine := PerChannel.set s.presenceLine ch true }) ∧
   (∀ s ch before, (s.ccu ch).phase = .disconnected →
     exec (.presenceLoss ch before) s = .next { s with presenceLine := PerChannel.set s.presenceLine ch false }) ∧
   ∀ s ch, s.resetAsserted = true →
     exec (.presenceReturn ch) s = .next { s with presenceLine := PerChannel.set s.presenceLine ch true } ∧
     ∀ before,
       exec (.presenceLoss ch before) s = .next { s with presenceLine := PerChannel.set s.presenceLine ch false })

/-! ### The client channels -/

/-- FUNCTION_WORD on a connected channel, for every code but CLEAR_PORT's: the open transaction ends, leaving the discard
marker, and the request is handed over, or its parameter words are awaited, or an undefined code is answered at once. -/
def Obligations.FunctionWordOpensTransaction : Prop :=
  ∀ s ch w, s.resetAsserted = false → (s.ccu ch).phase ≠ .disconnected →
    let marker := (s.ccu ch).discard || decide ((s.ccu ch).phase ≠ .idle)
    let stale := s.handed.map fun h : Handed => if h.channel = ch then { h with live := false } else h
    let ended : State := { s with
      handed := stale
      answers := s.answers.map fun a : Answer => if a.channel = ch then { a with live := false } else a
      deferred := s.deferred.filter fun h : Handed => decide (h.channel ≠ ch) }
    (∀ r, decodeRequest (functionCode w) = some r → r ≠ .clearPort → r.parameterCount = 0 →
      exec (.functionWord ch w) s = .next { ended with
        channels := PerChannel.set s.channels ch
          { phase := .awaiting, collecting := none, params := [], reply := [], discard := marker, reading := false
            handshake := ⟨false, false, false, false⟩ }
        handed := stale ++ [⟨ch, r, functionSelector w, [], true, false⟩] }) ∧
    (∀ r, decodeRequest (functionCode w) = some r → r.parameterCount ≠ 0 →
      exec (.functionWord ch w) s = .next { ended with
        channels := PerChannel.set s.channels ch
          { phase := .parameters, collecting := some ⟨r, functionSelector w⟩, params := [], reply := []
            discard := marker, reading := false, handshake := ⟨false, false, false, false⟩ } }) ∧
    (decodeRequest (functionCode w) = none →
      exec (.functionWord ch w) s = .next { ended with
        channels := PerChannel.set s.channels ch
          { phase := .reply, collecting := none, params := []
            reply := [BitVec.ofNat 16 (6 * 256 + marker.toNat * 4), 0], discard := false, reading := false
            handshake := ⟨false, false, false, false⟩ } })

/-- PARAMETER_WORD in PARAMETERS: every word but the last is kept and answered empty; the last hands the request over. A
block that ends short is answered SHORT_PARAMETERS and nothing is handed over; the words-requested count 0 of that answer
is the model's choice (log 13). A word offered in IDLE, PENDING or REPLY is answered inactive and not taken: phase, buffers
and marker stay. The signal levels held between two steps are the model's choice (log 19), as is that a stray word in
PARAMETERS is no event (log 2). -/
def Obligations.ParameterWordsAreCollected : Prop :=
  (∀ s ch w o, s.resetAsserted = false → (s.ccu ch).phase = .parameters → (s.ccu ch).collecting = some o →
    ((s.ccu ch).params.length + 1 < o.request.parameterCount →
      exec (.parameterWord ch w) s = .next { s with
        channels := PerChannel.set s.channels ch
          { s.ccu ch with params := (s.ccu ch).params ++ [w], handshake := ⟨false, true, false, true⟩ } }) ∧
    (o.request.parameterCount ≤ (s.ccu ch).params.length + 1 →
      exec (.parameterWord ch w) s = .next { s with
        channels := PerChannel.set s.channels ch
          { s.ccu ch with phase := .awaiting, collecting := none, params := [], reading := false
                          handshake := ⟨false, false, false, false⟩ }
        handed := s.handed ++ [⟨ch, o.request, o.selector, (s.ccu ch).params ++ [w], true, false⟩] })) ∧
  (∀ s ch, s.resetAsserted = false → (s.ccu ch).phase = .parameters →
    ∃ t, exec (.shortParameters ch) s = .next t ∧ (t.ccu ch).phase = .reply ∧ (t.ccu ch).params = [] ∧
      (t.ccu ch).reply = [BitVec.ofNat 16 (5 * 256 + (s.ccu ch).discard.toNat * 4), 0] ∧
      (t.ccu ch).discard = false ∧ (t.ccu ch).collecting = none ∧ t.handed = s.handed ∧
      (∀ d, d ≠ ch → t.ccu d = s.ccu d) ∧ t = { s with channels := t.channels }) ∧
  (∀ s ch w c, s.resetAsserted = false → (c = .strayWord ch w ∨ c = .parameterWord ch w) →
    ((s.ccu ch).phase = .idle ∨ (s.ccu ch).phase = .awaiting ∨ (s.ccu ch).phase = .reply) →
    exec c s = .next { s with
      channels := PerChannel.set s.channels ch
        { s.ccu ch with reading := false, handshake := ⟨false, false, false, false⟩ } }) ∧
  (∀ s ch w c, (c = .strayWord ch w ∨ c = .parameterWord ch w) → (s.ccu ch).phase = .disconnected →
    exec c s = .next s) ∧
  ∀ s ch w, (s.ccu ch).phase = .parameters → exec (.strayWord ch w) s = .next s

/-- ANSWER_TAKEN: the oldest answer given to the channel leaves; in PENDING, when its transaction is still open, the unit
builds the two header words with DISCARDED, CLAMPED and OVERFLOW and the two counts, and enters REPLY. Any other answer is
discarded. -/
def Obligations.AnswerBuildsReply : Prop :=
  ∀ s ch a, s.resetAsserted = false → s.answers.find? (fun a => decide (a.channel = ch)) = some a →
    ((s.ccu ch).phase = .awaiting → a.live = true →
      ∃ t, exec (.answerTaken ch) s = .next t ∧ (t.ccu ch).phase = .reply ∧ (t.ccu ch).discard = false ∧
        (t.ccu ch).reply =
          BitVec.ofNat 16 (a.reply.status.code * 256 + (s.ccu ch).discard.toNat * 4 + a.reply.clamped.toNat * 2
            + a.reply.overflow.toNat)
          :: BitVec.ofNat 16 (a.reply.data.length * 256 + a.reply.requested) :: a.reply.data ∧
        ((s.ccu ch).reading = true → (t.ccu ch).handshake = ⟨false, true, true, false⟩) ∧
        (∀ d, d ≠ ch → t.ccu d = s.ccu d) ∧
        t.answers = s.answers.eraseP (fun a => decide (a.channel = ch)) ∧
        t = { s with channels := t.channels, answers := t.answers }) ∧
    ((s.ccu ch).phase ≠ .awaiting ∨ a.live = false →
      exec (.answerTaken ch) s =
        .next { s with answers := s.answers.eraseP (fun a => decide (a.channel = ch)) })

/-- REPLY_WORD_READ and REPLY_ABANDONED: words leave the reply buffer one at a time, the last returns the channel to IDLE;
an abandoned reply is lost and sets the discard marker; in PENDING no word is placed and the phase stays. The signal
levels held between two steps are the model's choice (log 19). -/
def Obligations.ReplyIsReadOrAbandoned : Prop :=
  ∀ s ch, s.resetAsserted = false →
    (∀ w v rest, (s.ccu ch).phase = .reply → (s.ccu ch).reply = w :: v :: rest →
      exec (.replyWordRead ch) s = .next { s with
        channels := PerChannel.set s.channels ch
          { s.ccu ch with reply := v :: rest, reading := true, handshake := ⟨false, true, true, false⟩ } }) ∧
    (∀ w, (s.ccu ch).phase = .reply → (s.ccu ch).reply = [w] →
      exec (.replyWordRead ch) s = .next { s with
        channels := PerChannel.set s.channels ch
          { s.ccu ch with phase := .idle, reply := [], reading := false, handshake := ⟨false, false, false, false⟩ } }) ∧
    ((s.ccu ch).phase = .reply →
      exec (.replyAbandoned ch) s = .next { s with
        channels := PerChannel.set s.channels ch
          { s.ccu ch with phase := .idle, reply := [], discard := true, reading := false
                          handshake := ⟨false, false, false, false⟩ } }) ∧
    ((s.ccu ch).phase = .awaiting →
      exec (.replyWordRead ch) s = .next { s with
        channels := PerChannel.set s.channels ch
          { s.ccu ch with reading := true, handshake := ⟨false, true, false, false⟩ } } ∧
      exec (.replyAbandoned ch) s = .next { s with
        channels := PerChannel.set s.channels ch
          { s.ccu ch with reading := false, handshake := ⟨false, false, false, false⟩ } })

/-- CLEAR_PORT, as its own command or as its function word (one effect: log 12): the transaction ends, the reply is
ACCEPTED with no flag, and no discard is reported. In DISCONNECTED a unit takes nothing at all. -/
def Obligations.ClearPortBeginsAgain : Prop :=
  (∀ s ch w c, s.resetAsserted = false → (s.ccu ch).phase ≠ .disconnected → functionCode w = 0x3F →
    (c = .clearPort ch ∨ c = .functionWord ch w) →
    exec c s = .next { s with
      channels := PerChannel.set s.channels ch
        { phase := .reply, collecting := none, params := [], reply := [0, 0], discard := false, reading := false
          handshake := ⟨false, false, false, false⟩ }
      handed := s.handed.map fun h : Handed => if h.channel = ch then { h with live := false } else h
      answers := s.answers.map fun a : Answer => if a.channel = ch then { a with live := false } else a
      deferred := s.deferred.filter fun h : Handed => decide (h.channel ≠ ch) }) ∧
  ∀ s ch w c, (s.ccu ch).phase = .disconnected →
    c ∈ [Instr.functionWord ch w, .parameterWord ch w, .shortParameters ch, .replyWordRead ch, .replyAbandoned ch,
      .clearPort ch] →
    exec c s = .next s

/-- The fields of a function word: the upper 6 bits are the request code and the low three the selector, the seven bits
between are ignored; every request of the table is read back from its own code. -/
def Obligations.FunctionWordFieldsAreReadBack : Prop :=
  (∀ r sel, decodeRequest (functionCode (encodeFunctionWord r sel)) = some r ∧
    functionSelector (encodeFunctionWord r sel) = sel) ∧
  (∀ w : Word, functionCode w = (w.extractLsb' 10 6).toNat ∧ (functionSelector w).val = (w.extractLsb' 0 3).toNat) ∧
  ∀ n r, decodeRequest n = some r → r.code = n

/-! ### Claims and alarms -/

/-- Every claim request: with the caller's view ABSENT, or handed over before a presence loss and taken after it, it is not
executed and not answered (once the presence has returned this is the model's choice, log 31); OBSERVE is refused all
but CHECK; a resource other than LINE and TABLES is out of range. -/
def Obligations.ClaimRequestsCheckedInOrder : Prop :=
  ∀ s ch c r h,
    (c, r) ∈ [(Instr.claim ch, Request.claim), (.claimIfClean ch, .claimIfClean), (.check ch, .check),
      (.takeover ch, .takeover), (.release ch, .release)] →
    s.offers ch r h →
    (PerChannel.get s.views ch = false ∨ h.lost = true → exec c s = .next (s.taken ch r)) ∧
    (PerChannel.get s.views ch = true → h.lost = false → PerChannel.get s.straps.permits ch = .observe → r ≠ .check →
      exec c s = .next (s.served ch r h (.refusal .notPermitted))) ∧
    (PerChannel.get s.views ch = true → h.lost = false → (PerChannel.get s.straps.permits ch = .full ∨ r = .check) →
      2 ≤ h.selector.val → exec c s = .next (s.served ch r h (.refusal .outOfRange)))

/-- CLAIM, and CLAIM_IF_CLEAN with a clear summary: a free resource is granted with tag and time, the owner's tag is
replaced, another owner aborts it HELD. CLAIM_IF_CLEAN aborts NOT_CLEAN when any alarm item is set. The request is one
handed over since the last presence loss; ClaimRequestsCheckedInOrder has the other case. -/
def Obligations.ClaimGrantsFreeResource : Prop :=
  ∀ s ch c req h r,
    (c, req) ∈ [(Instr.claim ch, Request.claim), (.claimIfClean ch, .claimIfClean)] →
    s.offers ch req h → PerChannel.get s.views ch = true → h.lost = false →
    PerChannel.get s.straps.permits ch = .full → resource? h.selector = some r →
    let tag := h.params.getD 0 0
    let clean := s.alarms.verdict = 0 ∧ s.alarms.selectorFault = false ∧ s.alarms.receiverLos = false
    (∀ o, (s.claim r).owner = some o → o ≠ ch → exec c s = .next (s.served ch req h
      { status := .abort, clamped := false, overflow := false, requested := 0, data := [1, word (Channel.code o)] })) ∧
    (req = .claimIfClean → ¬ clean → ((s.claim r).owner = none ∨ (s.claim r).owner = some ch) →
      exec c s = .next (s.served ch req h
        { status := .abort, clamped := false, overflow := false, requested := 0
          data := [2, word (ownerCode (s.claim r).owner)] })) ∧
    ((req = .claim ∨ clean) → (s.claim r).owner = none → exec c s = .next
      ((s.served ch req h (.ok [0, word (Channel.code ch)])).setClaim r ⟨some ch, tag, s.epoch⟩)) ∧
    ((req = .claim ∨ clean) → (s.claim r).owner = some ch → exec c s = .next
      ((s.served ch req h (.ok [0, word (Channel.code ch)])).setClaim r ⟨some ch, tag, (s.claim r).since⟩))

/-- CHECK changes no record and answers ACCEPTED, NOT_OWNER with the owner, or TAG_MISMATCH with the caller (R146). RELEASE by
the owner empties the record and stamps it; anyone else aborts NOT_OWNER; nothing else changes (R148). The request is one
handed over since the last presence loss; ClaimRequestsCheckedInOrder has the other case. -/
def Obligations.CheckAndReleaseAskTheOwner : Prop :=
  (∀ s ch h r, s.offers ch .check h → PerChannel.get s.views ch = true → h.lost = false → resource? h.selector = some r →
     let tag := h.params.getD 0 0
     ((s.claim r).owner = some ch → (s.claim r).tag = tag →
       exec (.check ch) s = .next (s.served ch .check h (.ok [0, word (Channel.code ch)]))) ∧
     ((s.claim r).owner ≠ some ch → exec (.check ch) s = .next (s.served ch .check h
       { status := .abort, clamped := false, overflow := false, requested := 0
         data := [3, word (ownerCode (s.claim r).owner)] })) ∧
     ((s.claim r).owner = some ch → (s.claim r).tag ≠ tag → exec (.check ch) s = .next (s.served ch .check h
       { status := .abort, clamped := false, overflow := false, requested := 0, data := [4, word (Channel.code ch)] }))) ∧
  (∀ s ch h r, s.offers ch .release h → PerChannel.get s.views ch = true → h.lost = false →
     PerChannel.get s.straps.permits ch = .full → resource? h.selector = some r →
     ((s.claim r).owner = some ch → exec (.release ch) s = .next
       ((s.served ch .release h (.ok [0, 0])).setClaim r ⟨none, 0, s.epoch⟩)) ∧
     ((s.claim r).owner ≠ some ch → exec (.release ch) s = .next (s.served ch .release h
       { status := .abort, clamped := false, overflow := false, requested := 0
         data := [3, word (ownerCode (s.claim r).owner)] })))

/-- TAKEOVER: NOT_HELD on NONE, accepted without effect by the owner, granted with the tag kept and a CLAIM_LOST record to
the former owner's home queue when the tags are equal, TAG_MISMATCH otherwise. The request is one handed over since the
last presence loss; ClaimRequestsCheckedInOrder has the other case. -/
def Obligations.TakeoverNeedsTheTag : Prop :=
  ∀ s ch h r, s.offers ch .takeover h → PerChannel.get s.views ch = true → h.lost = false →
    PerChannel.get s.straps.permits ch = .full → resource? h.selector = some r →
    let tag := h.params.getD 0 0
    ((s.claim r).owner = none → exec (.takeover ch) s = .next (s.served ch .takeover h
      { status := .abort, clamped := false, overflow := false, requested := 0, data := [5, 0] })) ∧
    ((s.claim r).owner = some ch →
      exec (.takeover ch) s = .next (s.served ch .takeover h (.ok [0, word (Channel.code ch)]))) ∧
    (∀ o, (s.claim r).owner = some o → o ≠ ch → (s.claim r).tag = tag → exec (.takeover ch) s = .next
      (((s.served ch .takeover h (.ok [0, word (Channel.code ch)])).setClaim r ⟨some ch, tag, s.epoch⟩).post
        (PerChannel.get s.homes o) (.claimLost r o .takenOver))) ∧
    (∀ o, (s.claim r).owner = some o → o ≠ ch → (s.claim r).tag ≠ tag →
      exec (.takeover ch) s = .next (s.served ch .takeover h
        { status := .abort, clamped := false, overflow := false, requested := 0, data := [4, word (Channel.code o)] }))

/-- ACK_ALARM: OBSERVE is refused, an undefined item or an unfitted pair is out of range; otherwise the item becomes clear
and the reply says whether it was set. -/
def Obligations.AckAlarmClearsOneItem : Prop :=
  ∀ s ch h, s.offers ch .ackAlarm h →
    let n := h.word 0
    let p := h.selector
    ∃ t, exec (.ackAlarm ch) s = .next t ∧ s.judged t ch .ackAlarm h
      ((n = 0 → t = { s.served ch .ackAlarm h (.ok [word (s.alarms.verdict.getLsbD p.val).toNat]) with
          alarms := { s.alarms with verdict := t.alarms.verdict } } ∧
        ∀ q : Pair, t.alarms.verdict.getLsbD q.val = (decide (q ≠ p) && s.alarms.verdict.getLsbD q.val)) ∧
       (n = 1 → t = { s.served ch .ackAlarm h (.ok [word s.alarms.selectorFault.toNat]) with
          alarms := { s.alarms with selectorFault := false } }) ∧
       (n = 2 → t = { s.served ch .ackAlarm h (.ok [word s.alarms.receiverLos.toNat]) with
          alarms := { s.alarms with receiverLos := false } }))
      [(PerChannel.get s.straps.permits ch = .observe, .notPermitted),
       (2 < n ∨ n = 0 ∧ s.notFitted p, .outOfRange)]

/-! ### The Table Store -/

/-- WRITE_LINE_SETUP: its checks in order; an accepted write replaces the four fields and puts every centre lag back on the
nominal lag. -/
def Obligations.LineSetupIsReplacedWhole : Prop :=
  ∀ s ch h, s.offers ch .writeLineSetup h →
    let m := h.word 0
    let refLag := h.word 2
    let len := 2 ^ m - 1
    ∃ t, exec (.writeLineSetup ch) s = .next t ∧ s.judged t ch .writeLineSetup h
      (t.lineSetup = ⟨m, h.word 1, refLag, h.word 3⟩ ∧
       (∀ p i, i ≤ 192 → t.wp p i =
         { s.wp p i with centre := if i = 0 then refLag else (s.housing i).lag }) ∧
       t = { s.served ch .writeLineSetup h (.ok []) with lineSetup := t.lineSetup, watchPoints := t.watchPoints })
      [(s.tablesClaim.owner ≠ some ch, .notClaimed),
       (m < 11 ∨ 15 < m ∨ 6 < h.word 1 ∨ h.word 3 < 1 ∨ 255 < h.word 3 ∨ refLag < 32 ∨ len - 33 < refLag, .outOfRange),
       (s.current ≠ none ∨ s.workQueue ≠ [] ∨ s.isolationQueue ≠ [] ∨ (∃ i, i ≤ 192 ∧ s.someEnabled i), .lineNotIdle),
       ((∃ i, 1 ≤ i ∧ i ≤ 192 ∧ (s.housing i).present = true ∧ len - 32 ≤ (s.housing i).lag) ∨
          (∃ i, 1 ≤ i ∧ i ≤ 192 ∧ (s.housing i).present = true ∧ (s.housing i).lag ≤ refLag ∧
            ∀ j, 1 ≤ j → j < i → (s.housing j).present = false), .lagOrder)]

/-- WRITE_HOUSING: with present yes the range, enabled, address and lag-order checks, then the entry takes the written
values; with present no it takes its parked contents; any other present word is out of range. The centre lags of its watch
points follow the entry. -/
def Obligations.HousingWriteKeepsLagOrder : Prop :=
  ∀ s ch h, s.offers ch .writeHousing h →
    let n := h.word 0
    let address := h.word 2
    let lag := h.word 3
    let stored (t : State) (e : HousingEntry) : Prop :=
      t.housing n = e ∧ (∀ i, i ≠ n → t.housing i = s.housing i) ∧
      (∀ p i, i ≤ 192 → t.wp p i = if i = n then { s.wp p i with centre := e.lag } else s.wp p i) ∧
      t = { s.served ch .writeHousing h (.ok []) with housings := t.housings, watchPoints := t.watchPoints }
    ∃ t, exec (.writeHousing ch) s = .next t ∧
      (h.word 1 = 1 → s.judged t ch .writeHousing h
        (stored t
          { present := true, address := address, lag := lag
            bitOrder := if h.word 4 = 0 then .msbFirst else .lsbFirst
            nibbleOrder := if h.word 5 = 0 then .highFirst else .lowFirst
            longCapable := decide (h.word 6 = 1), swapCapable := decide (h.word 7 = 1) })
        [(s.tablesClaim.owner ≠ some ch, .notClaimed),
         (n < 1 ∨ 192 < n ∨ address < 1 ∨ 4094 < address ∨ lag < 32 ∨ s.len - 33 < lag ∨ 1 < h.word 4 ∨ 1 < h.word 5 ∨
            1 < h.word 6 ∨ 1 < h.word 7, .outOfRange),
         (s.someEnabled n, .watchPointEnabled),
         (∃ i, 1 ≤ i ∧ i ≤ 192 ∧ i ≠ n ∧ (s.housing i).present = true ∧ (s.housing i).address = address,
            .duplicateAddress),
         ((∃ b, b < n ∧ s.present b = true ∧ (∀ i, b < i → i < n → s.present i = false) ∧ lag ≤ s.nominalLag b) ∨
            (∃ a, n < a ∧ a ≤ 192 ∧ s.present a = true ∧ (∀ i, n < i → i < a → s.present i = false) ∧
              s.nominalLag a ≤ lag), .lagOrder)]) ∧
      (h.word 1 = 0 → s.judged t ch .writeHousing h
        (stored t
          { present := false, address := 0, lag := 32 + n, bitOrder := .msbFirst, nibbleOrder := .highFirst
            longCapable := false, swapCapable := false })
        [(s.tablesClaim.owner ≠ some ch, .notClaimed), (n < 1 ∨ 192 < n, .outOfRange),
         (s.someEnabled n, .watchPointEnabled)]) ∧
      (1 < h.word 1 → s.judged t ch .writeHousing h (t = s.served ch .writeHousing h (.refusal .outOfRange))
        [(s.tablesClaim.owner ≠ some ch, .notClaimed)])

/-- WRITE_TEMPLATE: W is refused, the track limit clamped to W ÷ 4, and the centre lags of the watch points that select
the template move to the nearer end of nominal lag ± W ÷ 2. -/
def Obligations.TemplateWriteKeepsWindows : Prop :=
  ∀ s ch h, s.offers ch .writeTemplate h →
    let n := h.word 0
    let width := h.word 1
    let limit := h.word 2
    ∃ t, exec (.writeTemplate ch) s = .next t ∧ s.judged t ch .writeTemplate h
      (t.template n = ⟨width, min limit (width / 4)⟩ ∧ (∀ i, i ≠ n → t.template i = s.template i) ∧
       (∀ p i, i ≤ 192 → t.wp p i =
         if (s.wp p i).template = n then
           { s.wp p i with
             centre := max (s.nominalLag i - width / 2) (min (s.nominalLag i + width / 2) (s.wp p i).centre) }
         else s.wp p i) ∧
       t = { s.served ch .writeTemplate h (.okClamped (decide (width / 4 < limit)) []) with
         templates := t.templates, watchPoints := t.watchPoints })
      [(s.tablesClaim.owner ≠ some ch, .notClaimed),
       (3 < n ∨ width % 2 = 1 ∨ width < 4 ∨ 64 < width, .outOfRange),
       (∃ p i, i ≤ 192 ∧ (s.wp p i).enabled = true ∧ (s.wp p i).template = n, .templateInUse)]

/-- WRITE_WATCH_POINT: the three configuration values, the centre lag on the nominal lag, every other field as it was.
WRITE_BASELINE: 0 clears the valid flag, any other value is the baseline; the deviation becomes absent and the updated time is
stamped; nothing else changes. -/
def Obligations.WatchPointFieldsAreWritten : Prop :=
  (∀ s ch h, s.offers ch .writeWatchPoint h →
     let p := h.selector
     let n := h.word 0
     ∃ t, exec (.writeWatchPoint ch) s = .next t ∧ s.judged t ch .writeWatchPoint h
       ((∃ q, queue? (h.word 2) = some q ∧ t.wp p n =
           { s.wp p n with template := h.word 1, queue := q, tracking := decide (h.word 3 = 1)
                           centre := if n = 0 then s.lineSetup.refLag else (s.housing n).lag }) ∧
        (∀ p' i, i ≤ 192 → (p' ≠ p ∨ i ≠ n) → t.wp p' i = s.wp p' i) ∧
        t = { s.served ch .writeWatchPoint h (.ok []) with watchPoints := t.watchPoints })
       [(s.tablesClaim.owner ≠ some ch, .notClaimed),
        (s.notFitted p ∨ 192 < n ∨ 3 < h.word 1 ∨ 3 < h.word 2 ∨ 1 < h.word 3, .outOfRange),
        (s.isBusy p, .pairBusy), ((s.wp p n).enabled = true, .watchPointEnabled)]) ∧
  (∀ s ch h, s.offers ch .writeBaseline h →
     let p := h.selector
     let n := h.word 0
     ∃ t, exec (.writeBaseline ch) s = .next t ∧ s.judged t ch .writeBaseline h
       (t.wp p n = { s.wp p n with
           baseline := if h.word 1 = 0 then none else some (h.word 1), deviation := none, updated := s.epoch } ∧
        (∀ p' i, i ≤ 192 → (p' ≠ p ∨ i ≠ n) → t.wp p' i = s.wp p' i) ∧
        t = { s.served ch .writeBaseline h (.ok []) with watchPoints := t.watchPoints })
       [(s.tablesClaim.owner ≠ some ch, .notClaimed), (s.notFitted p ∨ n < 1 ∨ 192 < n, .outOfRange),
        (s.isBusy p, .pairBusy)])

/-- ENABLE_WATCH_POINTS and DISABLE_WATCH_POINTS: the enabled field of the records first to last that change, with their
number in the reply; the place of the first > last test after PAIR_BUSY is the model's choice (log 14). -/
def Obligations.EnableCountsItsChanges : Prop :=
  ∀ s ch r h b c,
    (c, r, b) ∈ [(Instr.enableWatchPoints ch, Request.enableWatchPoints, true),
      (.disableWatchPoints ch, .disableWatchPoints, false)] →
    s.offers ch r h →
    let p := h.selector
    let first := h.word 0
    let last := h.word 1
    let changes (i : Nat) : Bool :=
      decide (first ≤ i ∧ i ≤ last) && decide ((s.wp p i).enabled ≠ b) && (!b || s.present i)
    ∃ t, exec c s = .next t ∧ s.judged t ch r h
      ((∀ p' i, i ≤ 192 → t.wp p' i =
          if p' = p ∧ changes i = true then { s.wp p' i with enabled := b } else s.wp p' i) ∧
       t = { s.served ch r h (.ok [word ((List.range 193).filter changes).length]) with watchPoints := t.watchPoints })
      [(s.tablesClaim.owner ≠ some ch, .notClaimed), (s.notFitted p ∨ 192 < first ∨ 192 < last, .outOfRange),
       (s.isBusy p, .pairBusy), (last < first, .outOfRange)]

/-- WRITE_PAIR_POLICY: thresholds are refused, the other numbers clamped to the nearer end; a change of normalise makes the
pair's housings unreferenced; auto-isolate going off withdraws the pair's queued entry, and PENDING becomes
NOT_PERMITTED. -/
def Obligations.PairPolicyIsReplacedWhole : Prop :=
  ∀ s ch h, s.offers ch .writePairPolicy h →
    let p := h.selector
    let old := s.policy p
    let turnedOff := old.autoIsolate = true ∧ h.word 10 = 0
    let queued := ∃ w ∈ s.isolationQueue, w.pair = p
    ∃ t, exec (.writePairPolicy ch) s = .next t ∧ s.judged t ch .writePairPolicy h
      ((∃ q, queue? (h.word 11) = some q ∧ t.policy p =
          { watchThreshold := h.word 0, degradeThreshold := h.word 1, floorThreshold := h.word 2
            levelMin := min 32767 (h.word 3), normalise := decide (h.word 4 = 1)
            refFloor := max 1 (min 32767 (h.word 5)), confirmCount := max 1 (min 8 (h.word 6))
            recoveryDepth := max 1 (min 4 (h.word 7)), tolerance := min 256 (h.word 8), clipLimit := h.word 9
            autoIsolate := decide (h.word 10 = 1), verdictQueue := q
            responsePeriods := max 1 (min 16 (h.word 12)), busyLimit := max 1 (min 255 (h.word 13)) }) ∧
       (∀ p', p' ≠ p → t.policy p' = s.policy p') ∧
       (∀ p' i, i ≤ 192 → t.wp p' i =
          if p' = p ∧ 1 ≤ i ∧ old.normalise ≠ decide (h.word 4 = 1) then
            { s.wp p i with
              baseline := none, deviation := none
              condition := if (s.wp p i).condition = .unobserved then .unobserved else .unreferenced }
          else s.wp p' i) ∧
       (turnedOff → t.isolationQueue = s.isolationQueue.filter fun w => decide (w.pair ≠ p)) ∧
       (¬ turnedOff → t.isolationQueue = s.isolationQueue) ∧
       (turnedOff → queued → (s.verdict p).status = .pending →
          t.verdict p = { s.verdict p with status := .notPermitted }) ∧
       (¬ turnedOff ∨ ¬ queued ∨ (s.verdict p).status ≠ .pending → t.verdict p = s.verdict p) ∧
       (∀ p', p' ≠ p → t.verdict p' = s.verdict p') ∧
       t = { s.served ch .writePairPolicy h (.okClamped (decide (32767 < h.word 3 ∨ h.word 5 < 1 ∨ 32767 < h.word 5 ∨
            h.word 6 < 1 ∨ 8 < h.word 6 ∨ h.word 7 < 1 ∨ 4 < h.word 7 ∨ 256 < h.word 8 ∨ h.word 12 < 1 ∨
            16 < h.word 12 ∨ h.word 13 < 1 ∨ 255 < h.word 13)) []) with
          policies := t.policies, watchPoints := t.watchPoints, isolationQueue := t.isolationQueue
          verdicts := t.verdicts })
      [(s.tablesClaim.owner ≠ some ch, .notClaimed),
       (s.notFitted p ∨ 1 < h.word 4 ∨ 1 < h.word 10 ∨ 3 < h.word 11, .outOfRange), (s.isBusy p, .pairBusy),
       (¬ (0 < h.word 2 ∧ h.word 2 < h.word 1 ∧ h.word 1 < h.word 0 ∧ h.word 0 ≤ 1024), .thresholdOrder)]

/-- SET_QUARANTINE and CLEAR_QUARANTINE: a mark that changes is stamped and recorded in the verdict queue, a queued entry for
the housing is withdrawn with its isolation status. -/
def Obligations.QuarantineIsMarked : Prop :=
  ∀ s ch r h c set st,
    (c, r, set, st) ∈ [(Instr.setQuarantine ch, Request.setQuarantine, true, IsolationStatus.quarantined),
      (.clearQuarantine ch, .clearQuarantine, false, .cancelled)] →
    s.offers ch r h →
    let p := h.selector
    let n := h.word 0
    let depth := if set then min 4 (h.word 1) else 0
    let mark : Option Nat := if set then some depth else none
    let queued := ∃ w ∈ s.isolationQueue, w.pair = p ∧ w.housing = n
    ∃ t, exec c s = .next t ∧ s.judged t ch r h
      (((s.wp p n).quarantine ≠ mark →
          t.wp p n = { s.wp p n with quarantine := mark, updated := s.epoch } ∧
          t.queues = (s.post (s.policy p).verdictQueue (.quarantine p n set depth (.channel ch))).queues) ∧
       ((s.wp p n).quarantine = mark → t.wp p n = s.wp p n ∧ t.queues = s.queues) ∧
       (∀ p' i, i ≤ 192 → (p' ≠ p ∨ i ≠ n) → t.wp p' i = s.wp p' i) ∧
       t.isolationQueue = s.isolationQueue.filter (fun w => !decide (w.pair = p ∧ w.housing = n)) ∧
       (queued → t.verdict p = { s.verdict p with status := st }) ∧ (¬ queued → t.verdict p = s.verdict p) ∧
       (∀ p', p' ≠ p → t.verdict p' = s.verdict p') ∧
       t = { s.served ch r h (.okClamped (set && decide (4 < h.word 1)) []) with
         watchPoints := t.watchPoints, queues := t.queues, isolationQueue := t.isolationQueue
         verdicts := t.verdicts })
      [(s.tablesClaim.owner ≠ some ch, .notClaimed), (s.notFitted p ∨ n < 1 ∨ 192 < n, .outOfRange),
       (s.isBusy p, .pairBusy)]

/-! ### Report queues and reads -/

/-- Posting a record: with fewer than 64 records it joins the tail and asserts the attention line of the bound channel; with
64 it is discarded and the overflow marker set (R160). -/
def Obligations.PostedRecordJoinsOrOverflows : Prop :=
  ∀ (s : State) q b,
    let old := PerQueue.get s.queues q
    (old.records.length < 64 →
      s.post q b = { s with queues := PerQueue.set s.queues q { old with records := old.records ++ [⟨b, s.epoch⟩] } } ∧
      ∀ ch, old.binding = some ch → (s.post q b).attention ch = true) ∧
    (64 ≤ old.records.length →
      s.post q b = { s with queues := PerQueue.set s.queues q { old with overflow := true } })

/-- BIND_QUEUE: its checks, then the binding and, with make-home yes, the home queue of the channel; the reply gives the former
binding. READ_QUEUE: a queue bound to another channel is refused; otherwise the oldest records leave the head for the reply,
oldest first, with the two counts, and the overflow marker is reported and cleared. The words-requested count of a refused
read is the model's choice (log 13). -/
def Obligations.QueuesAreBoundAndRead : Prop :=
  (∀ s ch h, s.offers ch .bindQueue h →
     ∃ t, exec (.bindQueue ch) s = .next t ∧ s.judged t ch .bindQueue h
       (∃ q c, queue? (h.word 0) = some q ∧ binding? (h.word 1) = some c ∧
         t = { s.served ch .bindQueue h (.ok [word (ownerCode (PerQueue.get s.queues q).binding)]) with
           queues := PerQueue.set s.queues q { PerQueue.get s.queues q with binding := c }
           homes :=
             match c with
             | some d => if h.word 2 = 1 then PerChannel.set s.homes d q else s.homes
             | none => s.homes })
       [(s.tablesClaim.owner ≠ some ch, .notClaimed),
        (3 < h.word 0 ∨ 3 < h.word 1 ∨ 1 < h.word 2 ∨ h.word 1 = 0 ∧ h.word 2 = 1, .outOfRange)]) ∧
  (∀ s ch h, s.offers ch .readQueue h →
     let n := max 1 (min 16 (h.word 1))
     let refusal (st : Status) : Reply :=
       { status := st, clamped := false, overflow := false, requested := 2 + 10 * n, data := [] }
     (3 < h.word 0 → exec (.readQueue ch) s = .next (s.served ch .readQueue h (refusal .outOfRange))) ∧
     ∀ q, queue? (h.word 0) = some q →
       let old := PerQueue.get s.queues q
       ((∃ d, old.binding = some d ∧ d ≠ ch) →
         exec (.readQueue ch) s = .next (s.served ch .readQueue h (refusal .notBound))) ∧
       (old.binding = none ∨ old.binding = some ch →
         exec (.readQueue ch) s = .next
           { s.served ch .readQueue h
               { status := .accepted, clamped := decide (h.word 1 = 0 ∨ 16 < h.word 1), overflow := old.overflow
                 requested := 2 + 10 * n
                 data := word (min n old.records.length) :: word (old.records.length - n) ::
                   (old.records.take n).flatMap Record.words } with
             queues := PerQueue.set s.queues q { old with records := old.records.drop n, overflow := false } }))

/-- READ_WATCH_POINTS and READ_VERDICT: out of range is refused; while the pair is evaluated the read is deferred; otherwise
it is answered with the contents as they stand. The range test before the deferral and the words-requested count of a refused
read are the model's choices (log 13, log 15). -/
def Obligations.PairReadsAnswerOrDefer : Prop :=
  (∀ s ch h, s.offers ch .readWatchPoints h →
    let p := h.selector
    let first := h.word 0
    let n := max 1 (min 16 (h.word 1))
    let housings := (List.range (min 193 (first + n) - first)).map (· + first)
    (s.notFitted p ∨ 192 < first → exec (.readWatchPoints ch) s = .next (s.served ch .readWatchPoints h
      { status := .outOfRange, clamped := false, overflow := false, requested := 1 + 10 * n, data := [] })) ∧
    (¬ s.notFitted p → first ≤ 192 → (∃ c, s.current = some c ∧ c.work.pair = p ∧ c.state = .evaluate) →
      exec (.readWatchPoints ch) s =
        .next { s.taken ch .readWatchPoints with deferred := s.deferred ++ [h] }) ∧
    (¬ s.notFitted p → first ≤ 192 → ¬ (∃ c, s.current = some c ∧ c.work.pair = p ∧ c.state = .evaluate) →
      exec (.readWatchPoints ch) s = .next (s.served ch .readWatchPoints h
        { status := .accepted, clamped := decide (h.word 1 = 0 ∨ 16 < h.word 1), overflow := false
          requested := 1 + 10 * n
          data := word housings.length :: housings.flatMap fun i => (s.wp p i).words i }))) ∧
  ∀ s ch h, s.offers ch .readVerdict h →
    let p := h.selector
    (s.notFitted p → exec (.readVerdict ch) s = .next (s.served ch .readVerdict h (.refusal .outOfRange))) ∧
    (¬ s.notFitted p → (∃ c, s.current = some c ∧ c.work.pair = p ∧ c.state = .evaluate) →
      exec (.readVerdict ch) s = .next { s.taken ch .readVerdict with deferred := s.deferred ++ [h] }) ∧
    (¬ s.notFitted p → ¬ (∃ c, s.current = some c ∧ c.work.pair = p ∧ c.state = .evaluate) →
      exec (.readVerdict ch) s =
        .next (s.served ch .readVerdict h (.ok ((s.verdict p).words ++ (s.policy p).words))))

/-- READ_ALARMS, READ_LINE_STATE, READ_TIME, READ_HOUSING and READ_CLAIMS answer at once with what their block holds and change
nothing else; entry 0 of the Housing Table carries the reference lag; a claim's tag is shown to its owner only. The
words-requested count of a refused read (log 13) and the dialect bits of entry 0 (log 32) are the model's choices. -/
def Obligations.ReadsReturnWhatIsHeld : Prop :=
  ((∀ s ch h, s.offers ch .readAlarms h → exec (.readAlarms ch) s = .next (s.served ch .readAlarms h
     (.ok [word (s.alarms.verdict.toNat + s.alarms.selectorFault.toNat * 256 + s.alarms.receiverLos.toNat * 512)]))) ∧
   (∀ s ch h, s.offers ch .readLineState h → exec (.readLineState ch) s = .next (s.served ch .readLineState h
     (.ok [word (lineStateCode (s.current.map (·.state))),
       match s.current with | none => 0xFFFF | some c => word c.work.tag.toNat,
       match s.current with | none => 0xFFFF | some c => word c.work.pair.val,
       word s.workQueue.length, word s.isolationQueue.length,
       match s.position with | none => 0xFFFF | some p => word p.val]))) ∧
   (∀ s ch h, s.offers ch .readTime h → exec (.readTime ch) s = .next (s.served ch .readTime h
     (.ok [word (s.epoch.toNat / 65536), word s.epoch.toNat]))) ∧
   ∀ s ch h, s.offers ch .readHousing h →
     let first := h.word 0
     let n := max 1 (min 16 (h.word 1))
     let housings := (List.range (min 193 (first + n) - first)).map (· + first)
     let entry (i : Nat) : List Word :=
       if i = 0 then [128, 0, word s.lineSetup.refLag] else (s.housing i).words i
     (192 < first → exec (.readHousing ch) s = .next (s.served ch .readHousing h
       { status := .outOfRange, clamped := false, overflow := false, requested := 1 + 3 * n, data := [] })) ∧
     (first ≤ 192 → exec (.readHousing ch) s = .next (s.served ch .readHousing h
       { status := .accepted, clamped := decide (h.word 1 = 0 ∨ 16 < h.word 1), overflow := false
         requested := 1 + 3 * n, data := word housings.length :: housings.flatMap entry }))) ∧
  (∀ s ch h, s.offers ch .readClaims h →
     let record (c : Claim) : List Word :=
       [word (ownerCode c.owner), word (c.since.toNat / 65536), word c.since.toNat,
         if c.owner = some ch then c.tag else 0]
     exec (.readClaims ch) s =
       .next (s.served ch .readClaims h (.ok (record s.lineClaim ++ record s.tablesClaim))))

/-! ### Line requests -/

/-- START_SWEEP and SEND_COMMAND: their checks, then an entry at the tail with the next free tag, which the reply carries and
the counter passes. -/
def Obligations.LineWorkIsEnqueuedWithFreeTag : Prop :=
  ∀ s ch, (∀ c r h, (c, r) ∈ [(Instr.startSweep ch, Request.startSweep), (.sendCommand ch, .sendCommand)] →
    s.offers ch r h →
    let p := h.selector
    let entered (t : State) (kind : WorkKind) (clamped : Bool) : Prop :=
      ∃ tag, (∃ k : Nat, tag = s.tagCounter + BitVec.ofNat 8 k ∧
          ∀ j < k, s.tagCounter + BitVec.ofNat 8 j ∈ s.heldTags) ∧
        (s.heldTags.length < 256 → tag ∉ s.heldTags) ∧
        t = { s.served ch r h (.okClamped clamped [word tag.toNat]) with
          workQueue := s.workQueue ++ [⟨tag, .channel ch, p, kind⟩], tagCounter := tag + 1 }
    ∃ t, exec c s = .next t ∧
      (r = .startSweep → s.judged t ch r h
        (∃ kind, sweepKind? (h.word 0) = some kind ∧
          entered t (.sweep kind (max 1 (min 1024 (h.word 1)))) (decide (h.word 1 = 0 ∨ 1024 < h.word 1)))
        [(s.lineClaim.owner ≠ some ch ∨ h.word 0 = 1 ∧ s.tablesClaim.owner ≠ some ch, .notClaimed),
         (s.notFitted p ∨ 1 < h.word 0, .outOfRange), (16 ≤ s.workQueue.length, .queueFull)]) ∧
      (r = .sendCommand → s.judged t ch r h
        (∃ op, operation? (h.word 1) = some op ∧
          entered t (.command (h.word 0) op (max 1 (min 4 (h.word 2)))) (decide (h.word 2 = 0 ∨ 4 < h.word 2)))
        [(s.lineClaim.owner ≠ some ch, .notClaimed),
         (s.notFitted p ∨ 192 < h.word 0 ∨ h.word 1 < 1 ∨ 4 < h.word 1, .outOfRange),
         (16 ≤ s.workQueue.length, .queueFull)]))

/-- CANCEL_WORK of queued work: its checks; the entry leaves its queue, its CANCELLED record goes where the work's records
go, and automatic work leaves its pair's isolation status CANCELLED. No two pieces of work share a tag (R43). -/
def Obligations.QueuedWorkIsCancelled : Prop :=
  ∀ s ch h, s.offers ch .cancelWork h → s.heldTags.Nodup →
    let n := h.word 0
    (255 < n → exec (.cancelWork ch) s = .next (s.served ch .cancelWork h (.refusal .outOfRange))) ∧
    (n ≤ 255 → (∀ tag ∈ s.heldTags, tag.toNat ≠ n) →
      exec (.cancelWork ch) s = .next (s.served ch .cancelWork h (.refusal .noSuchWork))) ∧
    ∀ w, (w ∈ s.workQueue ∨ w ∈ s.isolationQueue) → w.tag.toNat = n →
      (w.origin ≠ .channel ch → s.lineClaim.owner ≠ some ch →
        exec (.cancelWork ch) s = .next (s.served ch .cancelWork h (.refusal .notClaimed))) ∧
      (w.origin = .channel ch ∨ s.lineClaim.owner = some ch →
        ∃ t, exec (.cancelWork ch) s = .next t ∧
          t.workQueue = s.workQueue.filter (fun v => decide (v.tag ≠ w.tag)) ∧
          t.isolationQueue = s.isolationQueue.filter (fun v => decide (v.tag ≠ w.tag)) ∧
          t.queues = (s.post (s.workQueueOf w) w.cancelledRecord).queues ∧
          (w.origin = .auto → t.verdict w.pair = { s.verdict w.pair with status := .cancelled }) ∧
          (w.origin ≠ .auto → t.verdict w.pair = s.verdict w.pair) ∧
          (∀ p, p ≠ w.pair → t.verdict p = s.verdict p) ∧
          t = { s.served ch .cancelWork h (.ok []) with
            workQueue := t.workQueue, isolationQueue := t.isolationQueue, queues := t.queues
            verdicts := t.verdicts })

/-- CANCEL_WORK of the current work: authority, TOO_LATE for a sweep in EVALUATE, otherwise the work ends CANCELLED with its
record, the line side rests, the selector position is UNKNOWN after SELECT, the pump of a swap or restore is UNKNOWN once a
frame was sent, and automatic work leaves the status CANCELLED. The cleared working values of the Command Unit (log 16,
log 17) and the search of the current work first (log 28) are the model's. -/
def Obligations.CurrentWorkIsCancelled : Prop :=
  ∀ s ch h c, s.offers ch .cancelWork h → s.current = some c → c.work.tag.toNat = h.word 0 →
    c.work.housing ≤ 192 →
    let p := c.work.pair
    let swaps := c.work.isCommand = true ∧ c.work.operation.busy = true
    let sent := c.state = .responseWait ∨ c.state = .busyWait ∨ c.state = .responseRx ∨
      c.state = .commandTx ∧ 2 ≤ s.cmu.attempt
    (c.work.origin ≠ .channel ch → s.lineClaim.owner ≠ some ch →
      exec (.cancelWork ch) s = .next (s.served ch .cancelWork h (.refusal .notClaimed))) ∧
    (c.work.origin = .channel ch ∨ s.lineClaim.owner = some ch →
      (c.state = .evaluate → exec (.cancelWork ch) s = .next (s.served ch .cancelWork h (.refusal .tooLate))) ∧
      (c.state ≠ .evaluate →
        ∃ t, exec (.cancelWork ch) s = .next t ∧ t.lineRests ∧
          t.position = (if c.state = .select then none else s.position) ∧
          t.queues = (s.post (s.workQueueOf c.work) (s.currentCancelled c)).queues ∧
          (∀ q i, i ≤ 192 → t.wp q i =
            if swaps ∧ sent ∧ q = p ∧ i = c.work.housing then { s.wp q i with pump := .unknown } else s.wp q i) ∧
          (c.work.origin = .auto → c.work.isCommand = true → t.verdict p = { s.verdict p with status := .cancelled }) ∧
          (c.work.origin ≠ .auto ∨ c.work.isCommand = false → t.verdict p = s.verdict p) ∧
          (∀ q, q ≠ p → t.verdict q = s.verdict q) ∧
          t = { s.served ch .cancelWork h (.ok []) with
            current := t.current, allocation := t.allocation, chipTimer := t.chipTimer, settleTimer := t.settleTimer
            cmu := t.cmu, intervals := t.intervals, evaluation := t.evaluation, position := t.position
            queues := t.queues, watchPoints := t.watchPoints, verdicts := t.verdicts }))

/-- RESET_LINE: the current work aborted first, both queues emptied, every Verdict Register cleared, the selector UNKNOWN,
the deferred reads answered with the registers as cleared; tag counter, claims, alarms and tables stay, but for the pump
state UNKNOWN that aborting a swap or restore whose frame was sent writes. With no work current the rest of the line side
stays. Records in that order. The cleared working values of the Command Unit are the model's (log 16, log 17). -/
def Obligations.ResetLineReturnsToKnownStart : Prop :=
  ∀ s ch h, s.offers ch .resetLine h → (∀ c, s.current = some c → c.work.housing ≤ 192) →
    (s.lineClaim.owner ≠ some ch →
      exec (.resetLine ch) s = .next (s.served ch .resetLine h (.refusal .notClaimed))) ∧
    (s.lineClaim.owner = some ch →
      ∃ t, exec (.resetLine ch) s = .next t ∧
        t.current = none ∧ t.workQueue = [] ∧ t.isolationQueue = [] ∧ t.position = none ∧ t.requested = none ∧
        t.settleTimer = none ∧ t.deferred = [] ∧ (s.current ≠ none → t.lineRests) ∧
        (∀ p, t.verdict p =
          { candidate := none, streak := 0, confirmed := none, raised := 0, status := .notApplicable, postSwap := 0 }) ∧
        t.queues = (s.postEach (
          (match s.current with | none => [] | some c => [(s.workQueueOf c.work, s.currentCancelled c)]) ++
          s.workQueue.map (fun w => (s.workQueueOf w, w.cancelledRecord)) ++
          allPairs.filterMap (fun p => (s.verdict p).confirmed.map fun v =>
            ((s.policy p).verdictQueue, RecordBody.verdictCleared p v .lineReset)))).queues ∧
        t.answers =
          s.answers ++ s.deferred.map (fun d => ⟨d.channel, d.live, t.pairReply d⟩) ++ [⟨h.channel, h.live, .ok []⟩] ∧
        (∀ p i, i ≤ 192 →
          let aborted := ∃ c, s.current = some c ∧ s.swapSent c ∧ p = c.work.pair ∧ i = c.work.housing
          (aborted → t.wp p i = { s.wp p i with pump := .unknown }) ∧ (¬ aborted → t.wp p i = s.wp p i)) ∧
        (s.current = none → t.allocation = s.allocation ∧ t.chipTimer = s.chipTimer ∧ t.cmu = s.cmu ∧
          t.intervals = s.intervals ∧ t.evaluation = s.evaluation) ∧
        t = { s.taken ch .resetLine with
          current := t.current, workQueue := t.workQueue, isolationQueue := t.isolationQueue, position := t.position
          requested := t.requested, settleTimer := t.settleTimer, deferred := t.deferred, allocation := t.allocation
          chipTimer := t.chipTimer, cmu := t.cmu, intervals := t.intervals, evaluation := t.evaluation
          verdicts := t.verdicts, queues := t.queues, answers := t.answers, watchPoints := t.watchPoints })

/-! ### Taking work and the selector -/

/-- TAKE_WORK while IDLE: the head of the Isolation Queue, or else of the Work Queue, becomes current in START_CHECKS with the
present L; a sweep clears the clip count, a command puts the Command Unit in CHECK, automatic work becomes IN_FLIGHT. With
both queues empty nothing changes. Making the start checks in the same step or in the next is the same (log 5). The
working values of the Command Unit in CHECK (log 16, log 17) and the capture of L at the take (log 26) are the model's. -/
def Obligations.TakeWorkPrefersIsolation : Prop :=
  (∀ s w rest, s.resetAsserted = false → s.current = none →
    (s.isolationQueue = w :: rest ∨ s.isolationQueue = [] ∧ s.workQueue = w :: rest) →
    ∃ t, exec (.takeWork false) s = .next t ∧ t.current = some ⟨w, .startChecks, 2 ^ s.lineSetup.m - 1⟩ ∧
      t.isolationQueue = s.isolationQueue.tail ∧
      t.workQueue = (if s.isolationQueue = [] then s.workQueue.tail else s.workQueue) ∧
      (w.isCommand = false → t.clipCount = 0 ∧ t.cmu = s.cmu) ∧
      (w.isCommand = true → t.clipCount = s.clipCount ∧ t.cmu = { CommandUnit.reset with phase := .checking }) ∧
      (w.origin = .auto → t.verdict w.pair = { s.verdict w.pair with status := .inFlight }) ∧
      (w.origin ≠ .auto → t.verdict w.pair = s.verdict w.pair) ∧ (∀ p, p ≠ w.pair → t.verdict p = s.verdict p) ∧
      t = { s with
        current := t.current, isolationQueue := t.isolationQueue, workQueue := t.workQueue, clipCount := t.clipCount
        cmu := t.cmu, verdicts := t.verdicts }) ∧
  (∀ s, s.resetAsserted = false → s.current = none → s.isolationQueue = [] → s.workQueue = [] →
    ∀ b, exec (.takeWork b) s = .next s) ∧
  ∀ s t, exec (.takeWork false) s = .next t → exec (.takeWork true) s = exec (.takeWork true) t

/-- The start checks of a sweep: CELL_BUDGET above 8192 cells, REFERENCE_LOST with normalise on and no enabled reference;
otherwise one segment for each enabled watch point in housing order, packed from cell 0, its cells at 0 and unmarked, and the
work goes on to selection. -/
def Obligations.SweepStartChecksAllocate : Prop :=
  ∀ s c kind periods, s.resetAsserted = false → s.current = some c → c.state = .startChecks →
    c.work.kind = .sweep kind periods →
    let p := c.work.pair
    let enabled := (List.range 193).filter fun i => (s.wp p i).enabled
    let width (i : Nat) : Nat := (s.template (s.wp p i).template).width
    (8192 < (enabled.map width).sum →
      exec (.takeWork true) s = .next (s.sweepEnds c.work kind .cellBudget 0 0)) ∧
    ((enabled.map width).sum ≤ 8192 → (s.policy p).normalise = true → (s.wp p 0).enabled = false →
      exec (.takeWork true) s = .next (s.sweepEnds c.work kind .referenceLost 0 0)) ∧
    ((enabled.map width).sum ≤ 8192 → ((s.policy p).normalise = false ∨ (s.wp p 0).enabled = true) →
      ∃ u : State, exec (.takeWork true) s = .next (u.selection c) ∧
        u.allocation.map (fun g => (g.housing, g.width, g.centre)) =
          enabled.map (fun i => (i, width i, (s.wp p i).centre)) ∧
        (∀ k g, u.allocation[k]? = some g → g.first = ((u.allocation.take k).map (·.width)).sum) ∧
        (∀ k, Memory.read cellDefault u.cells k =
          if k < (enabled.map width).sum then ⟨0, false⟩ else Memory.read cellDefault s.cells k) ∧
        u = { s with allocation := u.allocation, cells := u.cells })

/-- The start checks of a command: NOT_VISIBLE, then UNSUPPORTED; otherwise the Command Unit captures its values with the
transmission sequence, the one segment is built, and the work goes on to selection. That the segment begins at cell 0 is
the model's reading (log 18). -/
def Obligations.CommandStartChecksCapture : Prop :=
  ∀ s c n op attempts, s.resetAsserted = false → s.current = some c → c.state = .startChecks →
    c.work.kind = .command n op attempts →
    let p := c.work.pair
    let wp := s.wp p n
    let entry := s.housing n
    let hidden := n = 0 ∨ entry.present = false ∨ wp.enabled = false ∨ wp.level = none ∨
      ∃ level, wp.level = some level ∧ level < (s.policy p).levelMin
    let unable := op.busy = true ∧ entry.swapCapable = false ∨ op = .readTelemetry ∧ entry.longCapable = false
    (hidden → exec (.takeWork true) s = .next (s.commandEnds c n op .notVisible none none)) ∧
    (¬ hidden → unable → exec (.takeWork true) s = .next (s.commandEnds c n op .unsupported none none)) ∧
    (¬ hidden → ¬ unable → ∀ level, wp.level = some level →
      let captured : Captured :=
        { address := entry.address, bitOrder := entry.bitOrder, nibbleOrder := entry.nibbleOrder, levelOn := level
          threshold := level / 2, periods := (s.policy p).responsePeriods, busyLimit := (s.policy p).busyLimit
          attempts := attempts
          sequence := transmission entry.bitOrder entry.nibbleOrder (frameOf entry.address p.val op.code) }
      exec (.takeWork true) s = .next (State.selection { s with
        cmu := { s.cmu with captured := some captured }
        allocation := [⟨n, (s.template wp.template).width, wp.centre, 0⟩] } c))

/-- Selection and the entry to the line: past SELECT when the position is the pair, else a request with a running settle
timer, confirmed at once when the switch shows the pair (in the same step: log 6); the entry loads the generator and starts
the chip timer, a command counts an attempt; loss of signal at entry ends the work. The interval counter, the start-search
count and the lit run at that entry are the model's choice (log 33). -/
def Obligations.SelectionLeadsToTheLine : Prop :=
  ∀ (s : State) (c : Current),
    let entered : State :=
      { s with
        generator := { m := s.lineSetup.m, k := s.lineSetup.k, stages := BitVec.ofNat 15 (2 ^ s.lineSetup.m - 1) }
        chipTimer := some ⟨0, 0⟩ }
    let ended (u : State) : State :=
      State.endWork { u with alarms := { u.alarms with receiverLos := true } } .receiverLos
    (s.position = some c.work.pair → s.selection c = s.enterLine c) ∧
    (s.position ≠ some c.work.pair → s.confirmInput ≠ some c.work.pair →
      s.selection c = { s with
        requested := some c.work.pair, settleTimer := some ⟨s.epoch, s.lineSetup.settle⟩
        current := some { c with state := .select } }) ∧
    (s.position ≠ some c.work.pair → s.confirmInput = some c.work.pair →
      s.selection c = State.enterLine { s with
        requested := some c.work.pair, settleTimer := none, position := some c.work.pair
        current := some { c with state := .select } } c) ∧
    (c.work.isCommand = false →
      let u : State := { entered with current := some { c with state := .settle } }
      s.enterLine c = if s.losInput then ended u else u) ∧
    (c.work.isCommand = true →
      let u : State := { entered with
        current := some { c with state := .commandTx }
        cmu := { s.cmu with
          phase := .frame, bit := 1, interval := 0, startCount := 0, litRun := false, collector := []
          attempt := s.cmu.attempt + 1, status := none, telemetry := none }
        intervals := [] }
      s.enterLine c = if s.losInput then ended u else u)

/-- SELECTOR_CONFIRM and LOSS_OF_POSITION: in SELECT the requested code confirms and anything else is passed over; elsewhere
anything but the requested code is a loss of position, which ends work on the line with SELECTOR_FAULT and only clears the
position otherwise; with no request the input is ignored (the reading of the input is log 7). SELECTOR_SETTLE_EXPIRY ends work
in SELECT with SELECTOR_FAULT from the settle limit on (log 23; no further millisecond ends first, EpochCounterRule) and is
no event before it (log 2); RECEIVER_LOS carries the level of its input (log 8) and, asserted, ends work on the line; each
sets its alarm item. -/
def Obligations.ConfirmInputAndLineFaults : Prop :=
  (∀ s i input, s.resetAsserted = false → (i = .lossOfPosition input ∨ ∃ code, input = some code ∧ i = .selectorConfirm code) →
     let u : State := { s with confirmInput := input }
     (s.requested = none → exec i s = .next u) ∧
     (∀ p, s.requested = some p →
       (∀ c, s.current = some c → c.state = .select →
         (input = some p → exec i s =
           .next (State.enterLine { u with settleTimer := none, position := some c.work.pair } c)) ∧
         (input ≠ some p → exec i s = .next u)) ∧
       ((∀ c, s.current = some c → c.state ≠ .select) →
         (input = some p → exec i s = .next u) ∧
         (input ≠ some p → s.onLine = false → exec i s = .next { u with position := none }) ∧
         (input ≠ some p → s.onLine = true → exec i s = .next (State.endWork
           { u with position := none, requested := none, settleTimer := none
                    alarms := { s.alarms with selectorFault := true } } .selectorFault))))) ∧
  ((∀ s c timer, s.resetAsserted = false → s.current = some c → c.state = .select → s.settleTimer = some timer →
     (timer.limit ≤ (s.epoch - timer.start).toNat → exec .selectorSettleExpiry s = .next (State.endWork
       { s with position := none, requested := none, settleTimer := none
                alarms := { s.alarms with selectorFault := true } } .selectorFault)) ∧
     ((s.epoch - timer.start).toNat < timer.limit → exec .selectorSettleExpiry s = .next s)) ∧
   (∀ s, s.resetAsserted = false → s.inState .select = false → exec .selectorSettleExpiry s = .next s) ∧
   ∀ s, s.resetAsserted = false →
     exec (.receiverLos false) s = .next { s with losInput := false } ∧
     (s.onLine = false → exec (.receiverLos true) s = .next { s with losInput := true }) ∧
     (s.onLine = true → exec (.receiverLos true) s = .next (State.endWork
       { s with losInput := true, alarms := { s.alarms with receiverLos := true } } .receiverLos)))

/-- How work ends: one SWEEP_DONE with the clip count, or one COMMAND_DONE with the attempts used, to the queue of the work;
the line side rests, the cleared working values of the Command Unit being the model's (log 16, log 17). -/
def Obligations.EndingPostsOneRecordAndRests : Prop :=
  (∀ (s : State) w kind o evaluated saturated,
    let t := s.sweepEnds w kind o evaluated saturated
    t.lineRests ∧
    t.queues =
      (s.post (s.workQueueOf w) (.sweepDone w.tag w.pair kind o evaluated saturated s.clipCount)).queues ∧
    t = { s with
      current := t.current, allocation := t.allocation, chipTimer := t.chipTimer, settleTimer := t.settleTimer
      cmu := t.cmu, intervals := t.intervals, evaluation := t.evaluation, queues := t.queues }) ∧
  (∀ (s : State) c n op o status telemetry,
    let t := s.commandEnds c n op o status telemetry
    let reported (u : State) : State :=
      if c.work.origin = .auto then u.autoOutcome c.work.pair n o status else u
    t.lineRests ∧ t.verdicts = (reported s).verdicts ∧
    t.queues = (reported (s.post (s.workQueueOf c.work)
      (.commandDone c.work.tag c.work.origin c.work.pair n op o s.cmu.attempt status telemetry))).queues ∧
    t = { s with
      current := t.current, allocation := t.allocation, chipTimer := t.chipTimer, settleTimer := t.settleTimer
      cmu := t.cmu, intervals := t.intervals, evaluation := t.evaluation, queues := t.queues
      watchPoints := t.watchPoints, verdicts := t.verdicts }) ∧
  ∀ (s : State) o c, s.current = some c →
    (∀ kind periods, c.work.kind = .sweep kind periods → s.endWork o = s.sweepEnds c.work kind o 0 0) ∧
    ∀ n op attempts, c.work.kind = .command n op attempts → s.endWork o = s.commandEnds c n op o none none

/-- The pump state a PUMP_SWAP or PUMP_RESTORE leaves, by its outcome, and the Localiser's answer to the outcome of an
automatic command: the status, and a quarantine where it is neither cured nor cancelled. MARK and READ_TELEMETRY write no
pump state. Nothing else of the watch point changes, and no other watch point. -/
def Obligations.PumpStateFollowsOutcome : Prop :=
  (∀ (s : State) c n op o status telemetry, n ≤ 192 →
    let p := c.work.pair
    let t := s.commandEnds c n op o status telemetry
    (op.busy = false → (t.wp p n).pump = (s.wp p n).pump) ∧
    (op.busy = true →
      (∀ w, status = some w → (o = .done ∨ o = .refusedByRepeater ∨ o = .repeaterFault) →
        (t.wp p n).pump = if w.getLsbD 7 then .secondary else .primary) ∧
      ((o = .mismatch ∨ o = .noResponse ∨ o = .busyTimeout ∨ o = .receiverLos) → (t.wp p n).pump = .unknown) ∧
      (o = .selectorFault → (t.wp p n).pump = if c.state = .select then (s.wp p n).pump else .unknown) ∧
      (o = .cancelled → (t.wp p n).pump =
        if c.state = .responseWait ∨ c.state = .busyWait ∨ c.state = .responseRx ∨
            c.state = .commandTx ∧ 2 ≤ s.cmu.attempt
        then .unknown else (s.wp p n).pump) ∧
      ((o = .notVisible ∨ o = .unsupported) → (t.wp p n).pump = (s.wp p n).pump)) ∧
    t.wp p n = { s.wp p n with
      pump := (t.wp p n).pump, quarantine := (t.wp p n).quarantine, updated := (t.wp p n).updated } ∧
    (c.work.origin ≠ .auto →
      (t.wp p n).quarantine = (s.wp p n).quarantine ∧ (t.wp p n).updated = (s.wp p n).updated) ∧
    (c.work.origin = .auto →
      (t.wp p n).quarantine = ((s.autoOutcome p n o status).wp p n).quarantine ∧
      (t.wp p n).updated = ((s.autoOutcome p n o status).wp p n).updated) ∧
    (∀ q i, i ≤ 192 → (q ≠ p ∨ i ≠ n) → t.wp q i = s.wp q i)) ∧
  ∀ (s : State) p n o status, n ≤ 192 →
    let t := s.autoOutcome p n o status
    (o = .cancelled → t = s.setStatus p .cancelled) ∧
    (∀ w : Word, o = .done → status = some w → w.getLsbD 7 = true → t = s.setStatus p .swapped) ∧
    (o ≠ .cancelled → (o ≠ .done ∨ status = none ∨ ∃ w : Word, status = some w ∧ w.getLsbD 7 = false) →
      t.verdict p = { s.verdict p with status := .quarantined } ∧ (∀ q, q ≠ p → t.verdict q = s.verdict q) ∧
      (t.wp p n).quarantine = some (s.policy p).recoveryDepth ∧
      s.autoQuarantined t p n (s.policy p).recoveryDepth ∧
      t = { s with verdicts := t.verdicts, watchPoints := t.watchPoints, queues := t.queues })

/-! ### Period ends and strobes -/

/-- The period ends of a sweep: the first moves SETTLE to INTEGRATE, ends 2 to P change no state, end P + 1 stops the chip
timer and enters EVALUATE with the cells, the policy and the degraded test. Before its period end is due no such event
exists (log 2). -/
def Obligations.PeriodEndsMoveTheSweep : Prop :=
  ∀ s c timer kind periods, s.resetAsserted = false → s.current = some c → s.chipTimer = some timer →
    c.work.kind = .sweep kind periods →
    let taken : Option ChipTimer := some { timer with ends := timer.ends + 1 }
    ((timer.ends + 1) * c.len ≤ timer.index →
      (c.state = .settle → exec .settlePeriodEnd s = .next { s with
        current := some { c with state := .integrate }, chipTimer := taken }) ∧
      (c.state = .integrate → timer.ends < periods →
        exec .integratePeriodEnd s = .next { s with chipTimer := taken } ∧ exec .integrateComplete s = .next s) ∧
      (c.state = .integrate → periods ≤ timer.ends →
        exec .integratePeriodEnd s = .next s ∧
        ∃ e, exec .integrateComplete s = .next { s with
            current := some { c with state := .evaluate }, chipTimer := none, evaluation := some e } ∧
          e.remaining = s.allocation ∧ e.policy = s.policy c.work.pair ∧ e.evaluated = 0 ∧ e.saturated = 0 ∧
          e.degraded = decide ((s.policy c.work.pair).clipLimit < s.clipCount) ∧ e.refLost = false ∧
          (s.allocation ≠ [] → e.stage = .segments) ∧
          (s.allocation = [] → e.stage =
            if e.degraded then .finished else if kind = .monitor then .streak else .rebaseline))) ∧
    (timer.index < (timer.ends + 1) * c.len →
      exec .settlePeriodEnd s = .next s ∧ exec .integratePeriodEnd s = .next s ∧ exec .integrateComplete s = .next s)

/-- SAMPLE_STROBE in INTEGRATE: every cell of every segment takes the product of the sample and the chip its lag asks for,
stopping at a limit with its marker; clipped samples are counted to 65535; the chip is recorded, the generator shifts, the
next instant begins. No other cell changes. That the chip is recorded before the sample is added (log 25) and that no
strobe comes while a period end is due (log 10) are the model's reading. -/
def Obligations.StrobeAccumulatesInIntegrate : Prop :=
  ∀ s c timer x, s.runningIn .integrate c timer → timer.index < (timer.ends + 1) * c.len →
    (s.allocation.flatMap Segment.cells).Nodup →
    let n := timer.index
    let chip := s.generator.stages.getLsbD (s.generator.m - 1)
    ∃ t, exec (.sampleStrobe x) s = .next t ∧
      (∀ j, Memory.read chipDefault t.chipHistory j =
        if j = n % c.len then chip else Memory.read chipDefault s.chipHistory j) ∧
      (∀ g ∈ s.allocation, ∀ w, w < g.width →
        let old := Memory.read cellDefault s.cells (g.first + w)
        let lag : Int := (g.centre : Int) - (g.width / 2 : Nat) + w
        let sent := Memory.read chipDefault t.chipHistory (((n : Int) - lag) % c.len).toNat
        let sum := old.value + (if sent then x.toInt else - x.toInt)
        Memory.read cellDefault t.cells (g.first + w) =
          if old.marked then old
          else if 2147483647 < sum then ⟨2147483647, true⟩
          else if sum < -2147483648 then ⟨-2147483648, true⟩
          else ⟨sum, false⟩) ∧
      (∀ k, k ∉ s.allocation.flatMap Segment.cells →
        Memory.read cellDefault t.cells k = Memory.read cellDefault s.cells k) ∧
      t.clipCount = (if x.toInt = -2048 ∨ x.toInt = 2047 then min 65535 (s.clipCount + 1) else s.clipCount) ∧
      t.generator = s.generator.shift ∧ t.chipTimer = some { timer with index := n + 1 } ∧
      t = { s with
        chipHistory := t.chipHistory, cells := t.cells, clipCount := t.clipCount, generator := t.generator
        chipTimer := t.chipTimer }

/-- SAMPLE_STROBE outside INTEGRATE: in SETTLE, in COMMAND_TX and in the round trip the sample is dropped, though the chip is
recorded; with the chip timer stopped there is no strobe. In an open response interval the sample is accumulated without a
clip count; at the interval's last instant its cell values are handed over in order, the cells go back to 0 and the interval
counter moves on, in one action. The model's: the strobes held back in the hypothesis (log 10), the markers cleared with
the cells (log 18), the chip recorded before the sample is added (log 25), and the interval closed whether or not the one
before it has been classified (log 34). -/
def Obligations.StrobeOutsideIntegrate : Prop :=
  ((∀ s c timer x, s.resetAsserted = false → s.current = some c → s.chipTimer = some timer →
     s.strobeWaits c timer = false →
     (c.state = .settle ∨ c.state = .commandTx ∨
       (c.state = .responseWait ∨ c.state = .busyWait) ∧ s.cmu.phase = .roundTrip) →
     exec (.sampleStrobe x) s = .next { s with
       chipHistory := Memory.write chipDefault s.chipHistory (timer.index % c.len)
         (s.generator.stages.getLsbD (s.generator.m - 1))
       generator := s.generator.shift, chipTimer := some { timer with index := timer.index + 1 } }) ∧
   ∀ s x, s.chipTimer = none → exec (.sampleStrobe x) s = .next s) ∧
  (∀ s c timer x cap g, s.resetAsserted = false → s.current = some c → s.chipTimer = some timer →
     (c.state = .responseWait ∨ c.state = .busyWait ∨ c.state = .responseRx) →
     (s.cmu.phase = .readySearch ∨ s.cmu.phase = .startSearch ∨ s.cmu.phase = .data) →
     s.cmu.captured = some cap → s.allocation = [g] →
     let n := timer.index
     let closes := n + 1 = 33 * c.len + g.centre + s.cmu.interval * (cap.periods * c.len)
     let u := (s.recordChip c.len n).accumulateSegment c.len n x g
     ∃ t, exec (.sampleStrobe x) s = .next t ∧ t.clipCount = s.clipCount ∧
       t.chipTimer = some { timer with index := n + 1 } ∧ t.generator = s.generator.shift ∧
       t.chipHistory = u.chipHistory ∧
       (¬ closes → t.cells = u.cells ∧ t.intervals = s.intervals ∧ t.cmu = s.cmu) ∧
       (closes →
         t.intervals = s.intervals ++ [⟨s.cmu.interval, (List.range g.width).map fun w =>
           (Memory.read cellDefault u.cells (g.first + w)).value⟩] ∧
         (∀ w, w < g.width → Memory.read cellDefault t.cells (g.first + w) = ⟨0, false⟩) ∧
         t.cmu = { s.cmu with interval := s.cmu.interval + 1 }) ∧
       t = { s with
         chipTimer := t.chipTimer, generator := t.generator, chipHistory := t.chipHistory, cells := t.cells
         intervals := t.intervals, cmu := t.cmu })

/-- The sequence generator: m stages, feedback the exclusive-OR of the taps of m, each shift moving stage k to k + 1; from all
ones the first m chips are +1. -/
def Obligations.GeneratorShiftsThroughItsTaps : Prop :=
  (∀ g : Generator, 11 ≤ g.m → g.m ≤ 15 →
    (∀ k, 1 ≤ k → k < g.m → g.shift.stage (k + 1) = g.stage k) ∧
    g.shift.stage 1 = (match g.m with
      | 11 => g.stage 11 ^^ g.stage 9
      | 12 => g.stage 12 ^^ g.stage 11 ^^ g.stage 10 ^^ g.stage 4
      | 13 => g.stage 13 ^^ g.stage 12 ^^ g.stage 11 ^^ g.stage 8
      | 14 => g.stage 14 ^^ g.stage 13 ^^ g.stage 12 ^^ g.stage 2
      | _ => g.stage 15 ^^ g.stage 14) ∧
    g.shift.m = g.m ∧ g.shift.k = g.k) ∧
  ∀ m k n, 11 ≤ m → m ≤ 15 → n < m →
    (Nat.repeat Generator.shift n { m := m, k := k, stages := BitVec.ofNat 15 (2 ^ m - 1) }).chip = true

/-! ### Levels and the evaluation -/

/-- Peak, offset and level: V is the largest value, o the first place that holds it (R80), and λ is 0 for V ≤ 0, 32767 for a
quotient of 2^27 or more, and min(32767, floor(floor(V ÷ P) × 16 ÷ L)) otherwise. -/
def Obligations.PeakAndLevelOfSegment : Prop :=
  (∀ v rest,
    let values : List Int := v :: rest
    values[(peak values).2]? = some (peak values).1 ∧ (∀ u ∈ values, u ≤ (peak values).1) ∧
    ∀ j u, j < (peak values).2 → values[j]? = some u → u < (peak values).1) ∧
  ∀ (v : Int) periods len, 0 < periods → 0 < len →
    levelOf v periods len ≤ 32767 ∧ (v ≤ 0 → levelOf v periods len = 0) ∧
    (0 < v → 134217728 ≤ v / periods → levelOf v periods len = 32767) ∧
    (0 < v → v / periods < 134217728 → (levelOf v periods len : Int) = min 32767 (v / periods * 16 / len))

/-- WATCH_POINT_ACTION on the reference segment: its numbers and markers, ν only when the level is not below the reference
floor; below it the reference is lost and no segment is left. After the last segment the evaluation moves on by its kind. -/
def Obligations.ReferenceSegmentIsWritten : Prop :=
  ∀ s c e g rest, s.evaluatingAt .segments c e → e.remaining = g :: rest → g.housing = 0 →
    let p := c.work.pair
    let values := (List.range g.width).map fun w => (Memory.read cellDefault s.cells (g.first + w)).value
    let saturated := (List.range g.width).any fun w => (Memory.read cellDefault s.cells (g.first + w)).marked
    let level := levelOf (peak values).1 c.work.periods c.len
    let offset := (peak values).2
    let lost := e.policy.normalise = true ∧ level < e.policy.refFloor
    ∃ t f, exec .watchPointAction s = .next t ∧ t.evaluation = some f ∧
      t.wp p 0 = { s.wp p 0 with
        level := some level
        norm := if lost then (s.wp p 0).norm
                else if e.policy.normalise then some (min 65535 (level * 4096 / level)) else some level
        offset := offset, edge := decide (offset = 0 ∨ offset + 1 = g.width), saturated := saturated
        updated := s.epoch } ∧
      (∀ q i, i ≤ 192 → (q ≠ p ∨ i ≠ 0) → t.wp q i = s.wp q i) ∧
      f.refLevel = level ∧ f.evaluated = e.evaluated + 1 ∧ f.saturated = e.saturated + saturated.toNat ∧
      f.policy = e.policy ∧ f.degraded = e.degraded ∧
      (lost → f.remaining = [] ∧ f.refLost = true ∧ f.stage = .finished) ∧
      (¬ lost → f.remaining = rest ∧ f.refLost = e.refLost ∧ (rest ≠ [] → f.stage = .segments) ∧
        (rest = [] → f.stage =
          if e.refLost ∨ e.degraded then .finished
          else if c.work.sweepKind = .monitor then .streak else .rebaseline)) ∧
      t = { s with watchPoints := t.watchPoints, evaluation := t.evaluation }

/-- WATCH_POINT_ACTION on a housing segment: λ, ν, δ, markers and time; the fresh condition of a classifying evaluation, the
captured baseline of a completed BASELINE one, both held for a saturated segment; the CONDITION_CHANGE record of a changed
condition without quarantine. The centre lag is left to tracking. -/
def Obligations.HousingSegmentIsWritten : Prop :=
  ∀ s c e g rest, s.evaluatingAt .segments c e → e.remaining = g :: rest → g.housing ≠ 0 → g.housing ≤ 192 →
    let p := c.work.pair
    let n := g.housing
    let old := s.wp p n
    let values := (List.range g.width).map fun w => (Memory.read cellDefault s.cells (g.first + w)).value
    let saturated := (List.range g.width).any fun w => (Memory.read cellDefault s.cells (g.first + w)).marked
    let level := levelOf (peak values).1 c.work.periods c.len
    let offset := (peak values).2
    let norm := if e.policy.normalise then min 65535 (level * 4096 / e.refLevel) else level
    let deviation := old.baseline.map fun b => min 4095 (norm * 1024 / b)
    let captures := c.work.sweepKind = .baseline ∧ e.degraded = false ∧ saturated = false
    ∃ t f, exec .watchPointAction s = .next t ∧ t.evaluation = some f ∧
      (t.wp p n).level = some level ∧ (t.wp p n).norm = some norm ∧ (t.wp p n).offset = offset ∧
      (t.wp p n).edge = decide (offset = 0 ∨ offset + 1 = g.width) ∧ (t.wp p n).saturated = saturated ∧
      (t.wp p n).updated = s.epoch ∧
      (captures → level < e.policy.levelMin →
        (t.wp p n).baseline = none ∧ (t.wp p n).deviation = none ∧ (t.wp p n).condition = .absent) ∧
      (captures → e.policy.levelMin ≤ level →
        (t.wp p n).baseline = some (max 1 norm) ∧ (t.wp p n).deviation = some 1024 ∧
        (t.wp p n).condition = .normal) ∧
      (¬ captures → (t.wp p n).baseline = old.baseline ∧ (t.wp p n).deviation = deviation) ∧
      (saturated = true → (t.wp p n).condition = old.condition) ∧
      (¬ captures → saturated = false →
        (level < e.policy.levelMin → (t.wp p n).condition = .absent) ∧
        (e.policy.levelMin ≤ level → old.baseline = none → (t.wp p n).condition = .unreferenced) ∧
        ∀ d, e.policy.levelMin ≤ level → deviation = some d → (t.wp p n).condition =
          if e.policy.watchThreshold ≤ d then .normal
          else if e.policy.degradeThreshold ≤ d then .watch
          else if e.policy.floorThreshold ≤ d then .low else .absent) ∧
      ((t.wp p n).condition ≠ old.condition → old.quarantine = none →
        t.queues = (s.post old.queue
          (.conditionChange p n old.condition (t.wp p n).condition level (t.wp p n).deviation)).queues) ∧
      ((t.wp p n).condition = old.condition ∨ old.quarantine ≠ none → t.queues = s.queues) ∧
      t.wp p n = { old with
        level := (t.wp p n).level, norm := (t.wp p n).norm, offset := offset, edge := (t.wp p n).edge
        saturated := saturated, updated := s.epoch, baseline := (t.wp p n).baseline
        deviation := (t.wp p n).deviation, condition := (t.wp p n).condition, centre := (t.wp p n).centre } ∧
      (∀ q i, i ≤ 192 → (q ≠ p ∨ i ≠ n) → t.wp q i = s.wp q i) ∧
      f.remaining = rest ∧ f.evaluated = e.evaluated + 1 ∧ f.saturated = e.saturated + saturated.toNat ∧
      f.policy = e.policy ∧ f.degraded = e.degraded ∧ f.refLevel = e.refLevel ∧ f.refLost = e.refLost ∧
      (rest ≠ [] → f.stage = .segments) ∧
      (rest = [] → f.stage =
        if e.refLost ∨ e.degraded then .finished
        else if c.work.sweepKind = .monitor then .streak else .rebaseline) ∧
      t = { s with watchPoints := t.watchPoints, queues := t.queues, evaluation := t.evaluation }

/-- Tracking: in a MONITOR evaluation that is not degraded, an unsaturated watch point with tracking on and a fresh condition
NORMAL or WATCH has its centre lag moved by the clamped shift, within the allowed drift and the legal lags; any other action
leaves the centre lag. -/
def Obligations.TrackingMovesTheCentreLag : Prop :=
  ∀ s t c e g rest, s.evaluatingAt .segments c e → e.remaining = g :: rest → g.housing ≠ 0 → g.housing ≤ 192 →
    exec .watchPointAction s = .next t →
    let p := c.work.pair
    let n := g.housing
    let form := s.template (s.wp p n).template
    let half : Int := (form.width / 2 : Nat)
    let limit : Int := form.trackLimit
    let nominal : Int := (s.housing n).lag
    let shift := max (-limit) (min limit (((t.wp p n).offset : Int) - half))
    let moves := c.work.sweepKind = .monitor ∧ e.degraded = false ∧ (s.wp p n).tracking = true ∧
      (t.wp p n).saturated = false ∧ ((t.wp p n).condition = .normal ∨ (t.wp p n).condition = .watch)
    (moves → (t.wp p n).centre =
      (max (max 32 (nominal - half)) (min (min ((c.len : Int) - 33) (nominal + half)) (g.centre + shift))).toNat) ∧
    (¬ moves → (t.wp p n).centre = (s.wp p n).centre)

/-! ### The Localiser -/

/-- What a scan reads and what it names: the items in housing order, the skip set zone by zone, the lead, and the kind by the
tests of sections 6.1 in their order. -/
def Obligations.ScanNamesTheLeadAndKind : Prop :=
  (∀ (s : State) p policy,
    s.scan p policy = candidateOf policy (s.observedList p) (s.marks p) ∧
    (s.observedList p).Pairwise (fun a b => a.housing < b.housing) ∧
    (∀ i : Item, i ∈ s.observedList p ↔ 1 ≤ i.housing ∧ i.housing ≤ 192 ∧ (s.wp p i.housing).enabled = true ∧
      i.condition = (s.wp p i.housing).condition ∧ i.deviation = (s.wp p i.housing).deviation ∧
      (i.condition = .normal ∨ i.condition = .watch ∨ i.condition = .low ∨ i.condition = .absent)) ∧
    ∀ q d, (q, d) ∈ s.marks p ↔ 1 ≤ q ∧ q ≤ 192 ∧ (s.wp p q).quarantine = some d) ∧
  (∀ (items : List Item) marks h, h ∈ skipSet items marks ↔ ∃ q d, (q, d) ∈ marks ∧
    (h = q ∨ h ∈ (((items.filter fun i => decide (q < i.housing ∧ i.condition ≠ .absent)).take d).map (·.housing)))) ∧
  ∀ policy items marks,
    let skip := skipSet items marks
    let qualifies (i : Item) : Prop := i.housing ∉ skip ∧ i.condition ≠ .normal
    (candidateOf policy items marks = none ↔ ∀ i ∈ items, ¬ qualifies i) ∧
    ∀ before f rest, items = before ++ f :: rest → (∀ i ∈ before, ¬ qualifies i) → qualifies f →
      let after := items.filter fun i => decide (f.housing < i.housing)
      let near := after.take policy.recoveryDepth
      let kind : FaultKind :=
        if f.condition = .absent then
          if ∀ i ∈ after, i.condition = .absent then .sectionOpen
          else if (after.head?.map (·.condition)) ≠ some .absent then .loopbackFault else .unresolved
        else if ∃ i ∈ near, i.condition = .normal then .amplifierDegraded
        else if f.deviation.isSome ∧ ∀ i ∈ after, i.condition ≠ .absent ∧ i.deviation.isSome ∧
            (orZero i.deviation ≤ orZero f.deviation + policy.tolerance) ∧
            (orZero f.deviation ≤ orZero i.deviation + policy.tolerance) then .sectionExcessLoss
        else .unresolved
      candidateOf policy items marks = some ⟨kind, f.housing⟩

/-- The confirmation, step by step: the streak update compares the scan's candidate with the stored one; clearing posts
VERDICT_CLEARED; replacement takes the candidate, or the reset values for NONE, and withdraws the pair's queued entry; raising
stamps the register, posts VERDICT_RAISED and sets the alarm item. -/
def Obligations.ConfirmationReplacesVerdict : Prop :=
  (∀ s c e, s.evaluatingAt .streak c e →
    let p := c.work.pair
    let old := s.verdict p
    let found := s.scan p e.policy
    let new : VerdictRegister :=
      if old.candidate = found then { old with streak := min 15 (old.streak + 1) }
      else { old with candidate := found, streak := 1 }
    let next : EvalStage :=
      if e.policy.confirmCount ≤ new.streak ∧ new.candidate ≠ new.confirmed then
        (if new.confirmed = none then .replacement else .clearing)
      else if new.status = .swapped then .escalation else .finished
    exec .streakUpdate s = .next { s.setVerdict p new with evaluation := some { e with stage := next } }) ∧
  (∀ s c e v, s.evaluatingAt .clearing c e → (s.verdict c.work.pair).confirmed = some v →
    exec .verdictClearing s =
      .next { s.post (s.policy c.work.pair).verdictQueue (.verdictCleared c.work.pair v .replaced) with
        evaluation := some { e with stage := .replacement } }) ∧
  (∀ s c e, s.evaluatingAt .replacement c e →
    let p := c.work.pair
    let old := s.verdict p
    ∃ t, exec .verdictReplacement s = .next t ∧
      (old.candidate = none →
        t.verdict p = { old with confirmed := none, raised := 0, status := .notApplicable, postSwap := 0 } ∧
        t.evaluation = some { e with stage := .finished }) ∧
      (old.candidate ≠ none → t.verdict p = { old with confirmed := old.candidate } ∧
        t.evaluation = some { e with stage := .raising }) ∧
      (∀ q, q ≠ p → t.verdict q = s.verdict q) ∧
      t.isolationQueue = s.isolationQueue.filter (fun w => decide (w.pair ≠ p)) ∧
      t = { s with verdicts := t.verdicts, isolationQueue := t.isolationQueue, evaluation := t.evaluation }) ∧
  ∀ s c e v, s.evaluatingAt .raising c e → (s.verdict c.work.pair).confirmed = some v →
    let p := c.work.pair
    ∃ t, exec .verdictRaise s = .next t ∧
      t.verdict p = { s.verdict p with raised := s.epoch, postSwap := 0 } ∧
      (∀ q, q ≠ p → t.verdict q = s.verdict q) ∧
      t.queues = (s.post (s.policy p).verdictQueue (.verdictRaised p v)).queues ∧
      (∀ q : Pair, t.alarms.verdict.getLsbD q.val = (decide (q = p) || s.alarms.verdict.getLsbD q.val)) ∧
      t.evaluation = some { e with stage := .isolation } ∧
      t = { s with
        verdicts := t.verdicts, queues := t.queues, alarms := { s.alarms with verdict := t.alarms.verdict }
        evaluation := t.evaluation }

/-- ISOLATION_START: not permitted, a PUMP_SWAP placed with the next free tag and 2 attempts, or the lead set aside, by the
kind of the confirmed verdict; the other kinds start none. POST_SWAP_ESCALATION: the post-swap count rises by 1; below C
nothing else happens, from C on the lead is set aside where isolation is permitted and the swap has FAILED where it is
not. Setting aside quarantines the lead, with its record when the mark changes, and changes no other watch point. -/
def Obligations.IsolationStartsAndEscalates : Prop :=
  (∀ s c e v, s.evaluatingAt .isolation c e → (s.verdict c.work.pair).confirmed = some v → v.lead ≤ 192 →
     let p := c.work.pair
     let permitted := s.straps.autoPermit = true ∧ (s.policy p).autoIsolate = true
     let swap := (s.housing v.lead).swapCapable = true ∧ (s.wp p v.lead).pump ≠ .secondary
     let depth := if v.kind = .amplifierDegraded then (s.policy p).recoveryDepth else 0
     let isolates := v.kind = .amplifierDegraded ∨ v.kind = .loopbackFault
     ∃ t, exec .isolationStart s = .next t ∧ t.evaluation = some { e with stage := .finished } ∧
       t.verdict p = { s.verdict p with status := (t.verdict p).status } ∧
       (∀ q, q ≠ p → t.verdict q = s.verdict q) ∧
       (¬ isolates → (t.verdict p).status = .notApplicable) ∧
       (isolates → ¬ permitted → (t.verdict p).status = .notPermitted) ∧
       (¬ isolates ∨ ¬ permitted →
         t = { s with verdicts := t.verdicts, evaluation := t.evaluation }) ∧
       (v.kind = .amplifierDegraded → permitted → swap →
         let left := s.isolationQueue.filter fun w => decide (w.pair ≠ p)
         (t.verdict p).status = .pending ∧
         ∃ tag, nextFree (s.workQueue.map (·.tag) ++ left.map (·.tag) ++ [c.work.tag]) s.tagCounter tag ∧
           t.isolationQueue = left ++ [⟨tag, .auto, p, .command v.lead .pumpSwap 2⟩] ∧ t.tagCounter = tag + 1 ∧
           t = { s with
             verdicts := t.verdicts, isolationQueue := t.isolationQueue, tagCounter := t.tagCounter
             evaluation := t.evaluation }) ∧
       (isolates → permitted → (v.kind = .amplifierDegraded → ¬ swap) →
         (t.verdict p).status = .quarantined ∧ (t.wp p v.lead).quarantine = some depth ∧
         s.autoQuarantined t p v.lead depth ∧
         t = { s with
           verdicts := t.verdicts, watchPoints := t.watchPoints, queues := t.queues, evaluation := t.evaluation })) ∧
  (∀ s c e v, s.evaluatingAt .escalation c e → (s.verdict c.work.pair).confirmed = some v → v.lead ≤ 192 →
     let p := c.work.pair
     let count := (s.verdict p).postSwap + 1
     let permitted := s.straps.autoPermit = true ∧ e.policy.autoIsolate = true
     let depth := e.policy.recoveryDepth
     ∃ t, exec .postSwapEscalation s = .next t ∧ t.evaluation = some { e with stage := .finished } ∧
       t.verdict p = { s.verdict p with postSwap := count, status := (t.verdict p).status } ∧
       (∀ q, q ≠ p → t.verdict q = s.verdict q) ∧
       (count < e.policy.confirmCount → (t.verdict p).status = (s.verdict p).status ∧
         t = { s with verdicts := t.verdicts, evaluation := t.evaluation }) ∧
       (e.policy.confirmCount ≤ count → ¬ permitted → (t.verdict p).status = .failed ∧
         t = { s with verdicts := t.verdicts, evaluation := t.evaluation }) ∧
       (e.policy.confirmCount ≤ count → permitted →
         (t.verdict p).status = .quarantined ∧ (t.wp p v.lead).quarantine = some depth ∧
         s.autoQuarantined t p v.lead depth ∧
         t = { s with
           verdicts := t.verdicts, watchPoints := t.watchPoints, queues := t.queues, evaluation := t.evaluation }))

/-- BASELINE_VERDICT_CLEARING clears the pair's register with a record for a confirmed verdict and withdraws its queued entry;
EVALUATION_DONE posts the SWEEP_DONE record with the evaluation's counts, returns to IDLE and answers the deferred reads;
the cleared working values of the Command Unit are the model's (log 16, log 17). -/
def Obligations.EvaluationEndsInOrder : Prop :=
  (∀ s c e, s.evaluatingAt .rebaseline c e →
    let p := c.work.pair
    ∃ t, exec .baselineVerdictClearing s = .next t ∧ t.verdict p =
        { candidate := none, streak := 0, confirmed := none, raised := 0, status := .notApplicable, postSwap := 0 } ∧
      (∀ q, q ≠ p → t.verdict q = s.verdict q) ∧
      t.isolationQueue = s.isolationQueue.filter (fun w => decide (w.pair ≠ p)) ∧
      ((s.verdict p).confirmed = none → t.queues = s.queues) ∧
      (∀ v, (s.verdict p).confirmed = some v →
        t.queues = (s.post (s.policy p).verdictQueue (.verdictCleared p v .rebaselined)).queues) ∧
      t.evaluation = some { e with stage := .finished } ∧
      t = { s with
        verdicts := t.verdicts, isolationQueue := t.isolationQueue, queues := t.queues
        evaluation := t.evaluation }) ∧
  ∀ s c e, s.evaluatingAt .finished c e →
    let outcome : WorkOutcome :=
      if e.refLost then .referenceLost else if e.degraded then .degradedInput else .completed
    ∃ t, exec .evaluationDone s = .next t ∧ t.lineRests ∧ t.deferred = [] ∧
      t.queues = (s.post (s.workQueueOf c.work) (.sweepDone c.work.tag c.work.pair c.work.sweepKind outcome e.evaluated
        e.saturated s.clipCount)).queues ∧
      t.answers = s.answers ++ s.deferred.map (fun d => ⟨d.channel, d.live, s.pairReply d⟩) ∧
      t = { s with
        current := t.current, allocation := t.allocation, chipTimer := t.chipTimer, settleTimer := t.settleTimer
        cmu := t.cmu, intervals := t.intervals, evaluation := t.evaluation, queues := t.queues
        deferred := t.deferred, answers := t.answers }

/-! ### The Command Unit -/

/-- The command frame and its check field (R123): the upper 12 of 24 bits are the address, then pair, operation and the sum
of the three 6-bit groups modulo 64. -/
def Obligations.FrameCarriesItsCheck : Prop :=
  ∀ address pair op, address < 4096 → pair < 8 → op < 8 →
    let frame := frameOf address pair op
    frame < 2 ^ 24 ∧ frame / 4096 = address ∧ frame / 512 % 8 = pair ∧ frame / 64 % 8 = op ∧
    frame % 64 = (frame / 2 ^ 18 + frame / 2 ^ 12 % 64 + frame / 64 % 64) % 64

/-- The transmission sequence is 32 bits with the preamble first, and in every dialect the bits of a frame are sent, and those of
a response word read back, at the places the two orders give. The status word's result is DONE, REFUSED_BY_REPEATER or
REPEATER_FAULT when operation, pair and address field pass, else MISMATCH, as for result 3. -/
def Obligations.ResponseIsReassembledAndChecked : Prop :=
  ((∀ b n frame, (transmission b n frame).length = 32 ∧
     (transmission b n frame).take 8 = [true, true, true, true, false, false, true, false] ∧
     ∀ i, i < 6 → ∀ j, j < 4 →
       let place := if n = .highFirst then 5 - i else i
       let bit := if b = .msbFirst then 3 - j else j
       (transmission b n frame)[8 + 4 * i + j]? = some (frame.testBit (4 * place + bit))) ∧
   ∀ b n bits k, 16 * k + 16 ≤ bits.length → ∀ i, i < 4 → ∀ j, j < 4 →
     let place := if n = .highFirst then 3 - i else i
     let bit := if b = .msbFirst then 3 - j else j
     bits[16 * k + 4 * i + j]? = some ((responseWord b n bits k).getLsbD (4 * place + bit))) ∧
  (∀ op (pair : Pair) address (w : Word),
     let passes := (w.extractLsb' 13 3).toNat = op.code ∧ (w.extractLsb' 10 3).toNat = pair.val ∧
       (w.extractLsb' 0 7).toNat = address % 128 ∧ (w.extractLsb' 8 2).toNat ≠ 3
     (¬ passes → statusOutcome op pair address w = .mismatch) ∧
     (passes → statusOutcome op pair address w =
       if (w.extractLsb' 8 2).toNat = 0 then .done
       else if (w.extractLsb' 8 2).toNat = 1 then .refusedByRepeater else .repeaterFault) ∧
     statusPump w = if w.getLsbD 7 then .secondary else .primary)

/-- FRAME_BIT_PERIOD_END, FRAME_END and ROUND_TRIP_END: a period end moves the frame to its next bit, period end 32 ends the
frame, and the first instant of interval 1 opens the intervals with cells at 0 and their markers cleared (log 18); a row
whose event is not due changes nothing (log 2). The outputs meanwhile (views of the state, log 20): the modulator presents
the chip in SETTLE, INTEGRATE and the command states on the line and is quiet elsewhere; the tone follows the frame bit
in COMMAND_TX and is off elsewhere. That the number of the frame bit stays as it is from period end 32 on is the model's
choice (log 35). -/
def Obligations.FrameAndRoundTripAreTimed : Prop :=
  (∀ s c timer, s.runningIn .commandTx c timer → (timer.ends + 1) * c.len ≤ timer.index →
    (timer.ends + 1 < 32 → exec .frameBitPeriodEnd s = .next { s with
        chipTimer := some { timer with ends := timer.ends + 1 }, cmu := { s.cmu with bit := s.cmu.bit + 1 } } ∧
      exec .frameEnd s = .next s) ∧
    (32 ≤ timer.ends + 1 → exec .frameBitPeriodEnd s = .next s ∧ exec .frameEnd s = .next { s with
        chipTimer := some { timer with ends := timer.ends + 1 }, cmu := { s.cmu with phase := .roundTrip }
        current := some { c with
          state := if c.work.operation = .pumpSwap ∨ c.work.operation = .pumpRestore then .busyWait
                   else .responseWait } })) ∧
  (∀ s c timer g, s.resetAsserted = false → s.current = some c → s.chipTimer = some timer → s.cmu.phase = .roundTrip →
    s.allocation = [g] →
    (timer.index < 33 * c.len + g.centre → exec .roundTripEnd s = .next s) ∧
    (33 * c.len + g.centre ≤ timer.index →
      ∃ t, exec .roundTripEnd s = .next t ∧
        (∀ k, Memory.read cellDefault t.cells k =
          if g.first ≤ k ∧ k < g.first + g.width then ⟨0, false⟩ else Memory.read cellDefault s.cells k) ∧
        t = { s with
          cells := t.cells
          cmu := { s.cmu with
            phase := if c.work.operation = .pumpSwap ∨ c.work.operation = .pumpRestore then .readySearch
                     else .startSearch
            interval := 1, startCount := 0, litRun := false } })) ∧
  (∀ s : State, s.current = none → s.modulator = none ∧ s.tone = false) ∧
  ∀ (s : State) c, s.current = some c →
    (c.state ∈ [LineState.settle, .integrate, .commandTx, .responseWait, .busyWait, .responseRx] →
      s.modulator = some (s.generator.stages.getLsbD (s.generator.m - 1))) ∧
    (c.state ∈ [LineState.startChecks, .select, .evaluate] → s.modulator = none) ∧
    (∀ cap, c.state = .commandTx → s.cmu.captured = some cap → s.tone = cap.sequence.getD (s.cmu.bit - 1) false) ∧
    (c.state ≠ .commandTx → s.tone = false)

/-- INTERVAL_CLASSIFIED: the oldest interval handed over is lit when its level reaches the threshold, and acts in the phase of
the Command Unit: ready search, start search, data. An attempt that ends is retried while attempts remain. BUSY_TIMEOUT is
the ready search reaching its limit (log 11). That more than one closed interval can wait (log 34), what the start-search
count counts, and what it and the lit run hold once they are done with (log 36) are the model's choices. -/
def Obligations.IntervalsAreReadInPhase : Prop :=
  (∀ s c cap i rest, s.resetAsserted = false → s.current = some c → s.cmu.captured = some cap →
    s.intervals = i :: rest →
    let level := levelOf (peak i.values).1 cap.periods c.len
    let lit := cap.threshold ≤ level
    let u : State := { s with intervals := rest }
    let ready := lit ∧ s.cmu.litRun = true ∧ 2 ≤ i.number
    (s.cmu.phase = .readySearch →
      (ready → exec .intervalClassified s = .next { u with
          cmu := { s.cmu with phase := .startSearch, startCount := 0 } } ∧ exec .busyTimeout s = .next s) ∧
      (¬ ready → i.number = cap.busyLimit →
        exec .intervalClassified s = .next (u.attemptEnds c cap .busyTimeout none none) ∧
        exec .busyTimeout s = .next (u.attemptEnds c cap .busyTimeout none none)) ∧
      (¬ ready → i.number ≠ cap.busyLimit →
        exec .intervalClassified s = .next { u with cmu := { s.cmu with litRun := decide lit } } ∧
        exec .busyTimeout s = .next s)) ∧
    (s.cmu.phase = .startSearch →
      (¬ lit → exec .intervalClassified s = .next { u with
          cmu := { s.cmu with phase := .data, collector := [] }, current := some { c with state := .responseRx } }) ∧
      (lit → s.cmu.startCount + 1 < 4 → exec .intervalClassified s = .next { u with
          cmu := { s.cmu with startCount := s.cmu.startCount + 1 } }) ∧
      (lit → 4 ≤ s.cmu.startCount + 1 →
        exec .intervalClassified s = .next (u.attemptEnds c cap .noResponse none none))) ∧
    (s.cmu.phase = .data →
      let bits := s.cmu.collector ++ [decide lit]
      let op := c.work.operation
      let wanted := if op = .readTelemetry then 64 else 16
      let part (k : Nat) : Word := responseWord cap.bitOrder cap.nibbleOrder bits k
      let outcome := statusOutcome op c.work.pair cap.address (part 0)
      (bits.length < wanted →
        exec .intervalClassified s = .next { u with cmu := { s.cmu with collector := bits } }) ∧
      (wanted ≤ bits.length → exec .intervalClassified s = .next (u.attemptEnds c cap outcome (some (part 0))
        (if op = .readTelemetry ∧ outcome = .done then some ⟨part 1, part 2, part 3⟩ else none))))) ∧
  ∀ (s : State) c cap o status telemetry,
    ((o = .noResponse ∨ o = .mismatch) ∧ s.cmu.attempt < cap.attempts →
      s.attemptEnds c cap o status telemetry = s.enterTx c) ∧
    (¬ ((o = .noResponse ∨ o = .mismatch) ∧ s.cmu.attempt < cap.attempts) →
      s.attemptEnds c cap o status telemetry =
        s.commandEnds c c.work.housing c.work.operation o status telemetry)

/-! ### What every step keeps -/

/-- Every step keeps the canonical form of the tables, the cells, the chip history and the Verdict Registers; the form, and
what an unlisted index reads as, are the model's way of holding them (log 27, and log 16 for the chip history). -/
def Obligations.EveryStepKeepsMemoriesCanonical : Prop :=
  ∀ s t, s.memoriesCanonical → step s = .next t → t.memoriesCanonical

/-- Every step keeps every report queue at 64 records or fewer, the Work Queue at 16 entries or fewer, one Isolation Queue entry
for a pair at most, and the work tags distinct; and every step keeps the presence view of a claim's owner PRESENT. -/
def Obligations.EveryStepKeepsQueuesAndOwners : Prop :=
  (∀ s t, s.reportsBounded ∧ s.workBounded → step s = .next t → t.reportsBounded ∧ t.workBounded) ∧
  (∀ s t, s.ownersPresent → step s = .next t → t.ownersPresent)

/-- Every step keeps the line side consistent with the state of the current work, and a settle timer never past its limit
(log 23). The phase CHECK of a command in SELECT, which it includes, is the model's choice (log 17). -/
def Obligations.EveryStepKeepsLineConsistent : Prop :=
  ∀ s t, s.lineConsistent → step s = .next t → t.lineConsistent

/-- Every step keeps automatic work, queued or current, answering the confirmed verdict of its pair, and the Isolation Queue at
one entry at most, the line side consistent throughout (in SELECT the phase CHECK is the model's choice, log 17; the settle
timer never past its limit, log 23). -/
def Obligations.EveryStepKeepsIsolationFollowing : Prop :=
  ∀ s t, s.isolationFollows → step s = .next t → t.isolationFollows

/-- Every step keeps the tables within their ranges, the lags of present housings rising and their addresses distinct, and
every centre lag within its housing's allowed drift and the legal lags. -/
def Obligations.EveryStepKeepsCentresLegal : Prop :=
  ∀ s t, s.centresLegal → step s = .next t → t.centresLegal
end

