-- ==== Sys2Proof/Laws/Memory.lean ====
section
/-! SUPPORT. Laws of the indexed memories: what a read finds after each operation, and that every operation keeps the
canonical form. -/

namespace Sys2Proof.Machine.Memory

variable {α : Type}

/-! ### Reads -/

@[simp] theorem read_nil (d : Nat → α) (k : Nat) : read d [] k = d k := rfl

theorem read_cons (d : Nat → α) (e : Nat × α) (m : Memory α) (k : Nat) :
    read d (e :: m) k = if k = e.1 then e.2 else read d m k := rfl

theorem read_filter (d : Nat → α) (p : Nat × α → Bool) (m : Memory α) (k : Nat)
    (hp : ∀ v, p (k, v) = true) : read d (m.filter p) k = read d m k := by
  induction m with
  | nil => rfl
  | cons e m ih =>
    obtain ⟨i, v⟩ := e
    by_cases hk : k = i
    · subst hk; simp [hp, read_cons]
    · by_cases he : p (i, v) <;> simp [he, read_cons, hk, ih]

theorem read_filter_gone (d : Nat → α) (p : Nat × α → Bool) (m : Memory α) (k : Nat)
    (hp : ∀ v, p (k, v) = false) : read d (m.filter p) k = d k := by
  induction m with
  | nil => rfl
  | cons e m ih =>
    obtain ⟨i, v⟩ := e
    by_cases hk : k = i
    · subst hk; simp [hp, ih]
    · by_cases he : p (i, v) <;> simp [he, read_cons, hk, ih]

theorem read_erase_same (d : Nat → α) (m : Memory α) (k : Nat) : read d (erase m k) k = d k :=
  read_filter_gone d _ m k (by simp)

theorem read_erase_other (d : Nat → α) (m : Memory α) {k i : Nat} (h : i ≠ k) :
    read d (erase m k) i = read d m i := read_filter d _ m i (by simp [h])

theorem read_insert_other (d : Nat → α) (m : Memory α) {k i : Nat} (v : α) (h : i ≠ k) :
    read d (insert m k v) i = read d m i := by
  induction m with
  | nil => simp [insert, read_cons, h]
  | cons e m ih => unfold insert; split <;> simp [read_cons, h, ih]

theorem read_insert_same (d : Nat → α) (m : Memory α) (k : Nat) (v : α) (h : ∀ e ∈ m, e.1 ≠ k) :
    read d (insert m k v) k = v := by
  induction m with
  | nil => simp [insert, read_cons]
  | cons e m ih =>
    unfold insert; split
    · simp [read_cons]
    · have hk : k ≠ e.1 := fun x => h e (by simp) x.symm
      simp [read_cons, hk, ih fun x hx => h x (by simp [hx])]

/-- A written index reads as what was written. -/
@[simp] theorem read_write_same [DecidableEq α] (d : Nat → α) (m : Memory α) (k : Nat) (v : α) :
    read d (write d m k v) k = v := by
  unfold write; split
  · next h => rw [read_erase_same, h]
  · exact read_insert_same d _ k v fun e he => by simpa [erase] using (List.mem_filter.mp he).2

/-- Every other index reads as before. -/
theorem read_write_other [DecidableEq α] (d : Nat → α) (m : Memory α) {k i : Nat} (v : α) (h : i ≠ k) :
    read d (write d m k v) i = read d m i := by
  unfold write; split
  · exact read_erase_other d m h
  · rw [read_insert_other d _ v h, read_erase_other d m h]

theorem read_write [DecidableEq α] (d : Nat → α) (m : Memory α) (k i : Nat) (v : α) :
    read d (write d m k v) i = if i = k then v else read d m i := by
  split
  · next h => subst h; simp
  · next h => exact read_write_other d m v h

/-- A rewritten list of indices: those in the list are rewritten once each, the others read as before. -/
theorem read_update [DecidableEq α] (d : Nat → α) (f : Nat → α → α) (ks : List Nat) (hks : ks.Nodup)
    (m : Memory α) (i : Nat) :
    read d (update d f m ks) i = if i ∈ ks then f i (read d m i) else read d m i := by
  induction ks generalizing m with
  | nil => simp [update]
  | cons k ks ih =>
    have hn := List.nodup_cons.mp hks
    rw [update, ih hn.2, read_write]
    by_cases hi : i = k
    · subst hi; simp [hn.1]
    · simp [hi]

/-- A cleared range reads as its reset contents. -/
theorem read_clearRange (d : Nat → α) (m : Memory α) (first n i : Nat) :
    read d (clearRange m first n) i = if first ≤ i ∧ i < first + n then d i else read d m i := by
  unfold clearRange; split
  · next h => exact read_filter_gone d _ m i (by simp only [h.1, h.2, and_self, not_true, decide_false, implies_true])
  · next h => exact read_filter d _ m i (by simp only [h, not_false_eq_true, decide_true, implies_true])

/-! ### The canonical form -/

theorem wf_iff [DecidableEq α] (d : Nat → α) (m : Memory α) :
    wf d m = true ↔ (m.Pairwise fun a b => a.1 < b.1) ∧ ∀ e ∈ m, e.2 ≠ d e.1 := by
  simp [wf]

@[simp] theorem wf_nil [DecidableEq α] (d : Nat → α) : wf d ([] : Memory α) = true := by simp [wf]

theorem wf_filter [DecidableEq α] (d : Nat → α) (p : Nat × α → Bool) {m : Memory α} (h : wf d m = true) :
    wf d (m.filter p) = true := by
  rw [wf_iff] at *
  exact ⟨h.1.filter p, fun e he => h.2 e (List.mem_filter.mp he).1⟩

theorem wf_erase [DecidableEq α] (d : Nat → α) {m : Memory α} (k : Nat) (h : wf d m = true) :
    wf d (erase m k) = true := wf_filter d _ h

theorem wf_clearRange [DecidableEq α] (d : Nat → α) {m : Memory α} (first n : Nat) (h : wf d m = true) :
    wf d (clearRange m first n) = true := wf_filter d _ h

theorem mem_insert {m : Memory α} {k : Nat} {v : α} {e : Nat × α} (h : e ∈ insert m k v) :
    e = (k, v) ∨ e ∈ m := by
  induction m with
  | nil => simpa [insert] using h
  | cons x m ih =>
    unfold insert at h; split at h
    · simpa using h
    · rcases List.mem_cons.mp h with h | h
      · exact .inr (by simp [h])
      · exact (ih h).imp id fun h => by simp [h]

theorem insert_pairwise {m : Memory α} {k : Nat} {v : α} (h : m.Pairwise fun a b => a.1 < b.1)
    (hk : ∀ e ∈ m, e.1 ≠ k) : (insert m k v).Pairwise fun a b => a.1 < b.1 := by
  induction m with
  | nil => simp [insert]
  | cons e m ih =>
    have hp := List.pairwise_cons.mp h
    unfold insert; split
    · next hlt =>
      refine List.pairwise_cons.mpr ⟨fun x hx => ?_, h⟩
      rcases List.mem_cons.mp hx with hx | hx
      · simpa [hx] using hlt
      · exact hlt.trans (hp.1 x hx)
    · next hlt =>
      refine List.pairwise_cons.mpr ⟨fun x hx => ?_, ih hp.2 fun x hx => hk x (by simp [hx])⟩
      rcases mem_insert hx with hx | hx
      · have := hk e (by simp); simp only [hx]; omega
      · exact hp.1 x hx

/-- A write keeps the canonical form. -/
theorem wf_write [DecidableEq α] (d : Nat → α) {m : Memory α} (k : Nat) (v : α) (h : wf d m = true) :
    wf d (write d m k v) = true := by
  unfold write; split
  · exact wf_erase d k h
  · next hv =>
    have he := (wf_iff d _).mp (wf_erase d k h)
    refine (wf_iff d _).mpr ⟨insert_pairwise he.1 fun e h => by simpa [erase] using (List.mem_filter.mp h).2,
      fun e h => ?_⟩
    rcases mem_insert h with h | h
    · simpa [h] using hv
    · exact he.2 e h

/-- Rewriting a list of indices keeps the canonical form. -/
theorem wf_update [DecidableEq α] (d : Nat → α) (f : Nat → α → α) (ks : List Nat) {m : Memory α}
    (h : wf d m = true) : wf d (update d f m ks) = true := by
  induction ks generalizing m with
  | nil => exact h
  | cons k ks ih => exact ih (wf_write d k _ h)

/-- Two memories in canonical form that read the same everywhere are the same list. -/
theorem ext_of_wf [DecidableEq α] (d : Nat → α) {m m' : Memory α} (h : wf d m = true) (h' : wf d m' = true)
    (hr : ∀ k, read d m k = read d m' k) : m = m' := by
  induction m generalizing m' with
  | nil =>
    cases m' with
    | nil => rfl
    | cons e m' =>
      have := hr e.1
      simp only [read_nil, read_cons, if_true] at this
      exact absurd this.symm (((wf_iff d _).mp h').2 e (by simp))
  | cons e m ih =>
    have hw := (wf_iff d _).mp h
    cases m' with
    | nil =>
      have := hr e.1
      simp only [read_nil, read_cons, if_true] at this
      exact absurd this (hw.2 e (by simp))
    | cons e' m' =>
      have hw' := (wf_iff d _).mp h'
      have below : ∀ {x : Nat × α} {l : Memory α} {k : Nat}, ((x :: l).Pairwise fun a b => a.1 < b.1) → k < x.1 →
          read d (x :: l) k = d k := by
        intro x l k hp hk
        induction l generalizing x with
        | nil => simp [read_cons, Nat.ne_of_lt hk]
        | cons y l ih =>
          have hp' := List.pairwise_cons.mp hp
          rw [read_cons, if_neg (Nat.ne_of_lt hk)]
          exact ih hp'.2 (hk.trans (hp'.1 y (by simp)))
      have hkey : e.1 = e'.1 := by
        rcases Nat.lt_trichotomy e.1 e'.1 with hlt | heq | hgt
        · have := hr e.1
          rw [below hw'.1 hlt, read_cons, if_pos rfl] at this
          exact absurd this (hw.2 e (by simp))
        · exact heq
        · have := hr e'.1
          rw [below hw.1 hgt, read_cons, if_pos rfl] at this
          exact absurd this.symm (hw'.2 e' (by simp))
      have hval : e.2 = e'.2 := by
        have := hr e.1
        simpa [read_cons, hkey] using this
      have he : e = e' := Prod.ext hkey hval
      subst he
      have tail : ∀ {l : Memory α}, ((e :: l).Pairwise fun a b => a.1 < b.1) → read d l e.1 = d e.1 := by
        intro l hp
        cases l with
        | nil => rfl
        | cons y l => exact below (List.pairwise_cons.mp hp).2 ((List.pairwise_cons.mp hp).1 y (by simp))
      congr 1
      refine ih ((wf_iff d _).mpr ⟨(List.pairwise_cons.mp hw.1).2, fun x hx => hw.2 x (by simp [hx])⟩)
        ((wf_iff d _).mpr ⟨(List.pairwise_cons.mp hw'.1).2, fun x hx => hw'.2 x (by simp [hx])⟩) fun k => ?_
      by_cases hk : k = e.1
      · subst hk; rw [tail hw.1, tail hw'.1]
      · have := hr k
        simpa [read_cons, hk] using this

end Sys2Proof.Machine.Memory
end

