-- ==== Sys2Proof/Laws/State.lean ====
section
/-! SUPPORT. For every named update of the state, what each field holds afterwards. Every lemma is true by rfl. -/

namespace Sys2Proof.Machine

variable (s : State)

/-! ### setHousing -/

@[simp] theorem State.resetAsserted_setHousing (h : Nat) (e : HousingEntry) : (s.setHousing h e).resetAsserted = s.resetAsserted := rfl
@[simp] theorem State.presenceLine_setHousing (h : Nat) (e : HousingEntry) : (s.setHousing h e).presenceLine = s.presenceLine := rfl
@[simp] theorem State.losInput_setHousing (h : Nat) (e : HousingEntry) : (s.setHousing h e).losInput = s.losInput := rfl
@[simp] theorem State.confirmInput_setHousing (h : Nat) (e : HousingEntry) : (s.setHousing h e).confirmInput = s.confirmInput := rfl
@[simp] theorem State.straps_setHousing (h : Nat) (e : HousingEntry) : (s.setHousing h e).straps = s.straps := rfl
@[simp] theorem State.epoch_setHousing (h : Nat) (e : HousingEntry) : (s.setHousing h e).epoch = s.epoch := rfl
@[simp] theorem State.channels_setHousing (h : Nat) (e : HousingEntry) : (s.setHousing h e).channels = s.channels := rfl
@[simp] theorem State.handed_setHousing (h : Nat) (e : HousingEntry) : (s.setHousing h e).handed = s.handed := rfl
@[simp] theorem State.answers_setHousing (h : Nat) (e : HousingEntry) : (s.setHousing h e).answers = s.answers := rfl
@[simp] theorem State.deferred_setHousing (h : Nat) (e : HousingEntry) : (s.setHousing h e).deferred = s.deferred := rfl
@[simp] theorem State.views_setHousing (h : Nat) (e : HousingEntry) : (s.setHousing h e).views = s.views := rfl
@[simp] theorem State.lineClaim_setHousing (h : Nat) (e : HousingEntry) : (s.setHousing h e).lineClaim = s.lineClaim := rfl
@[simp] theorem State.tablesClaim_setHousing (h : Nat) (e : HousingEntry) : (s.setHousing h e).tablesClaim = s.tablesClaim := rfl
@[simp] theorem State.alarms_setHousing (h : Nat) (e : HousingEntry) : (s.setHousing h e).alarms = s.alarms := rfl
@[simp] theorem State.lineSetup_setHousing (h : Nat) (e : HousingEntry) : (s.setHousing h e).lineSetup = s.lineSetup := rfl
@[simp] theorem State.housings_setHousing (h : Nat) (e : HousingEntry) : (s.setHousing h e).housings = Memory.write housingDefault s.housings h e := rfl
@[simp] theorem State.templates_setHousing (h : Nat) (e : HousingEntry) : (s.setHousing h e).templates = s.templates := rfl
@[simp] theorem State.watchPoints_setHousing (h : Nat) (e : HousingEntry) : (s.setHousing h e).watchPoints = s.watchPoints := rfl
@[simp] theorem State.policies_setHousing (h : Nat) (e : HousingEntry) : (s.setHousing h e).policies = s.policies := rfl
@[simp] theorem State.workQueue_setHousing (h : Nat) (e : HousingEntry) : (s.setHousing h e).workQueue = s.workQueue := rfl
@[simp] theorem State.isolationQueue_setHousing (h : Nat) (e : HousingEntry) : (s.setHousing h e).isolationQueue = s.isolationQueue := rfl
@[simp] theorem State.current_setHousing (h : Nat) (e : HousingEntry) : (s.setHousing h e).current = s.current := rfl
@[simp] theorem State.position_setHousing (h : Nat) (e : HousingEntry) : (s.setHousing h e).position = s.position := rfl
@[simp] theorem State.tagCounter_setHousing (h : Nat) (e : HousingEntry) : (s.setHousing h e).tagCounter = s.tagCounter := rfl
@[simp] theorem State.generator_setHousing (h : Nat) (e : HousingEntry) : (s.setHousing h e).generator = s.generator := rfl
@[simp] theorem State.chipTimer_setHousing (h : Nat) (e : HousingEntry) : (s.setHousing h e).chipTimer = s.chipTimer := rfl
@[simp] theorem State.requested_setHousing (h : Nat) (e : HousingEntry) : (s.setHousing h e).requested = s.requested := rfl
@[simp] theorem State.settleTimer_setHousing (h : Nat) (e : HousingEntry) : (s.setHousing h e).settleTimer = s.settleTimer := rfl
@[simp] theorem State.clipCount_setHousing (h : Nat) (e : HousingEntry) : (s.setHousing h e).clipCount = s.clipCount := rfl
@[simp] theorem State.cells_setHousing (h : Nat) (e : HousingEntry) : (s.setHousing h e).cells = s.cells := rfl
@[simp] theorem State.allocation_setHousing (h : Nat) (e : HousingEntry) : (s.setHousing h e).allocation = s.allocation := rfl
@[simp] theorem State.chipHistory_setHousing (h : Nat) (e : HousingEntry) : (s.setHousing h e).chipHistory = s.chipHistory := rfl
@[simp] theorem State.intervals_setHousing (h : Nat) (e : HousingEntry) : (s.setHousing h e).intervals = s.intervals := rfl
@[simp] theorem State.evaluation_setHousing (h : Nat) (e : HousingEntry) : (s.setHousing h e).evaluation = s.evaluation := rfl
@[simp] theorem State.verdicts_setHousing (h : Nat) (e : HousingEntry) : (s.setHousing h e).verdicts = s.verdicts := rfl
@[simp] theorem State.cmu_setHousing (h : Nat) (e : HousingEntry) : (s.setHousing h e).cmu = s.cmu := rfl
@[simp] theorem State.queues_setHousing (h : Nat) (e : HousingEntry) : (s.setHousing h e).queues = s.queues := rfl
@[simp] theorem State.homes_setHousing (h : Nat) (e : HousingEntry) : (s.setHousing h e).homes = s.homes := rfl
@[simp] theorem State.pending_setHousing (h : Nat) (e : HousingEntry) : (s.setHousing h e).pending = s.pending := rfl

/-! ### setWp -/

@[simp] theorem State.resetAsserted_setWp (p : Pair) (h : Nat) (w : WatchPoint) : (s.setWp p h w).resetAsserted = s.resetAsserted := rfl
@[simp] theorem State.presenceLine_setWp (p : Pair) (h : Nat) (w : WatchPoint) : (s.setWp p h w).presenceLine = s.presenceLine := rfl
@[simp] theorem State.losInput_setWp (p : Pair) (h : Nat) (w : WatchPoint) : (s.setWp p h w).losInput = s.losInput := rfl
@[simp] theorem State.confirmInput_setWp (p : Pair) (h : Nat) (w : WatchPoint) : (s.setWp p h w).confirmInput = s.confirmInput := rfl
@[simp] theorem State.straps_setWp (p : Pair) (h : Nat) (w : WatchPoint) : (s.setWp p h w).straps = s.straps := rfl
@[simp] theorem State.epoch_setWp (p : Pair) (h : Nat) (w : WatchPoint) : (s.setWp p h w).epoch = s.epoch := rfl
@[simp] theorem State.channels_setWp (p : Pair) (h : Nat) (w : WatchPoint) : (s.setWp p h w).channels = s.channels := rfl
@[simp] theorem State.handed_setWp (p : Pair) (h : Nat) (w : WatchPoint) : (s.setWp p h w).handed = s.handed := rfl
@[simp] theorem State.answers_setWp (p : Pair) (h : Nat) (w : WatchPoint) : (s.setWp p h w).answers = s.answers := rfl
@[simp] theorem State.deferred_setWp (p : Pair) (h : Nat) (w : WatchPoint) : (s.setWp p h w).deferred = s.deferred := rfl
@[simp] theorem State.views_setWp (p : Pair) (h : Nat) (w : WatchPoint) : (s.setWp p h w).views = s.views := rfl
@[simp] theorem State.lineClaim_setWp (p : Pair) (h : Nat) (w : WatchPoint) : (s.setWp p h w).lineClaim = s.lineClaim := rfl
@[simp] theorem State.tablesClaim_setWp (p : Pair) (h : Nat) (w : WatchPoint) : (s.setWp p h w).tablesClaim = s.tablesClaim := rfl
@[simp] theorem State.alarms_setWp (p : Pair) (h : Nat) (w : WatchPoint) : (s.setWp p h w).alarms = s.alarms := rfl
@[simp] theorem State.lineSetup_setWp (p : Pair) (h : Nat) (w : WatchPoint) : (s.setWp p h w).lineSetup = s.lineSetup := rfl
@[simp] theorem State.housings_setWp (p : Pair) (h : Nat) (w : WatchPoint) : (s.setWp p h w).housings = s.housings := rfl
@[simp] theorem State.templates_setWp (p : Pair) (h : Nat) (w : WatchPoint) : (s.setWp p h w).templates = s.templates := rfl
@[simp] theorem State.watchPoints_setWp (p : Pair) (h : Nat) (w : WatchPoint) : (s.setWp p h w).watchPoints = Memory.write wpDefault s.watchPoints (wpKey p h) w := rfl
@[simp] theorem State.policies_setWp (p : Pair) (h : Nat) (w : WatchPoint) : (s.setWp p h w).policies = s.policies := rfl
@[simp] theorem State.workQueue_setWp (p : Pair) (h : Nat) (w : WatchPoint) : (s.setWp p h w).workQueue = s.workQueue := rfl
@[simp] theorem State.isolationQueue_setWp (p : Pair) (h : Nat) (w : WatchPoint) : (s.setWp p h w).isolationQueue = s.isolationQueue := rfl
@[simp] theorem State.current_setWp (p : Pair) (h : Nat) (w : WatchPoint) : (s.setWp p h w).current = s.current := rfl
@[simp] theorem State.position_setWp (p : Pair) (h : Nat) (w : WatchPoint) : (s.setWp p h w).position = s.position := rfl
@[simp] theorem State.tagCounter_setWp (p : Pair) (h : Nat) (w : WatchPoint) : (s.setWp p h w).tagCounter = s.tagCounter := rfl
@[simp] theorem State.generator_setWp (p : Pair) (h : Nat) (w : WatchPoint) : (s.setWp p h w).generator = s.generator := rfl
@[simp] theorem State.chipTimer_setWp (p : Pair) (h : Nat) (w : WatchPoint) : (s.setWp p h w).chipTimer = s.chipTimer := rfl
@[simp] theorem State.requested_setWp (p : Pair) (h : Nat) (w : WatchPoint) : (s.setWp p h w).requested = s.requested := rfl
@[simp] theorem State.settleTimer_setWp (p : Pair) (h : Nat) (w : WatchPoint) : (s.setWp p h w).settleTimer = s.settleTimer := rfl
@[simp] theorem State.clipCount_setWp (p : Pair) (h : Nat) (w : WatchPoint) : (s.setWp p h w).clipCount = s.clipCount := rfl
@[simp] theorem State.cells_setWp (p : Pair) (h : Nat) (w : WatchPoint) : (s.setWp p h w).cells = s.cells := rfl
@[simp] theorem State.allocation_setWp (p : Pair) (h : Nat) (w : WatchPoint) : (s.setWp p h w).allocation = s.allocation := rfl
@[simp] theorem State.chipHistory_setWp (p : Pair) (h : Nat) (w : WatchPoint) : (s.setWp p h w).chipHistory = s.chipHistory := rfl
@[simp] theorem State.intervals_setWp (p : Pair) (h : Nat) (w : WatchPoint) : (s.setWp p h w).intervals = s.intervals := rfl
@[simp] theorem State.evaluation_setWp (p : Pair) (h : Nat) (w : WatchPoint) : (s.setWp p h w).evaluation = s.evaluation := rfl
@[simp] theorem State.verdicts_setWp (p : Pair) (h : Nat) (w : WatchPoint) : (s.setWp p h w).verdicts = s.verdicts := rfl
@[simp] theorem State.cmu_setWp (p : Pair) (h : Nat) (w : WatchPoint) : (s.setWp p h w).cmu = s.cmu := rfl
@[simp] theorem State.queues_setWp (p : Pair) (h : Nat) (w : WatchPoint) : (s.setWp p h w).queues = s.queues := rfl
@[simp] theorem State.homes_setWp (p : Pair) (h : Nat) (w : WatchPoint) : (s.setWp p h w).homes = s.homes := rfl
@[simp] theorem State.pending_setWp (p : Pair) (h : Nat) (w : WatchPoint) : (s.setWp p h w).pending = s.pending := rfl

/-! ### setPolicy -/

@[simp] theorem State.resetAsserted_setPolicy (p : Pair) (v : Policy) : (s.setPolicy p v).resetAsserted = s.resetAsserted := rfl
@[simp] theorem State.presenceLine_setPolicy (p : Pair) (v : Policy) : (s.setPolicy p v).presenceLine = s.presenceLine := rfl
@[simp] theorem State.losInput_setPolicy (p : Pair) (v : Policy) : (s.setPolicy p v).losInput = s.losInput := rfl
@[simp] theorem State.confirmInput_setPolicy (p : Pair) (v : Policy) : (s.setPolicy p v).confirmInput = s.confirmInput := rfl
@[simp] theorem State.straps_setPolicy (p : Pair) (v : Policy) : (s.setPolicy p v).straps = s.straps := rfl
@[simp] theorem State.epoch_setPolicy (p : Pair) (v : Policy) : (s.setPolicy p v).epoch = s.epoch := rfl
@[simp] theorem State.channels_setPolicy (p : Pair) (v : Policy) : (s.setPolicy p v).channels = s.channels := rfl
@[simp] theorem State.handed_setPolicy (p : Pair) (v : Policy) : (s.setPolicy p v).handed = s.handed := rfl
@[simp] theorem State.answers_setPolicy (p : Pair) (v : Policy) : (s.setPolicy p v).answers = s.answers := rfl
@[simp] theorem State.deferred_setPolicy (p : Pair) (v : Policy) : (s.setPolicy p v).deferred = s.deferred := rfl
@[simp] theorem State.views_setPolicy (p : Pair) (v : Policy) : (s.setPolicy p v).views = s.views := rfl
@[simp] theorem State.lineClaim_setPolicy (p : Pair) (v : Policy) : (s.setPolicy p v).lineClaim = s.lineClaim := rfl
@[simp] theorem State.tablesClaim_setPolicy (p : Pair) (v : Policy) : (s.setPolicy p v).tablesClaim = s.tablesClaim := rfl
@[simp] theorem State.alarms_setPolicy (p : Pair) (v : Policy) : (s.setPolicy p v).alarms = s.alarms := rfl
@[simp] theorem State.lineSetup_setPolicy (p : Pair) (v : Policy) : (s.setPolicy p v).lineSetup = s.lineSetup := rfl
@[simp] theorem State.housings_setPolicy (p : Pair) (v : Policy) : (s.setPolicy p v).housings = s.housings := rfl
@[simp] theorem State.templates_setPolicy (p : Pair) (v : Policy) : (s.setPolicy p v).templates = s.templates := rfl
@[simp] theorem State.watchPoints_setPolicy (p : Pair) (v : Policy) : (s.setPolicy p v).watchPoints = s.watchPoints := rfl
@[simp] theorem State.policies_setPolicy (p : Pair) (v : Policy) : (s.setPolicy p v).policies = Memory.write policyDefault s.policies p.val v := rfl
@[simp] theorem State.workQueue_setPolicy (p : Pair) (v : Policy) : (s.setPolicy p v).workQueue = s.workQueue := rfl
@[simp] theorem State.isolationQueue_setPolicy (p : Pair) (v : Policy) : (s.setPolicy p v).isolationQueue = s.isolationQueue := rfl
@[simp] theorem State.current_setPolicy (p : Pair) (v : Policy) : (s.setPolicy p v).current = s.current := rfl
@[simp] theorem State.position_setPolicy (p : Pair) (v : Policy) : (s.setPolicy p v).position = s.position := rfl
@[simp] theorem State.tagCounter_setPolicy (p : Pair) (v : Policy) : (s.setPolicy p v).tagCounter = s.tagCounter := rfl
@[simp] theorem State.generator_setPolicy (p : Pair) (v : Policy) : (s.setPolicy p v).generator = s.generator := rfl
@[simp] theorem State.chipTimer_setPolicy (p : Pair) (v : Policy) : (s.setPolicy p v).chipTimer = s.chipTimer := rfl
@[simp] theorem State.requested_setPolicy (p : Pair) (v : Policy) : (s.setPolicy p v).requested = s.requested := rfl
@[simp] theorem State.settleTimer_setPolicy (p : Pair) (v : Policy) : (s.setPolicy p v).settleTimer = s.settleTimer := rfl
@[simp] theorem State.clipCount_setPolicy (p : Pair) (v : Policy) : (s.setPolicy p v).clipCount = s.clipCount := rfl
@[simp] theorem State.cells_setPolicy (p : Pair) (v : Policy) : (s.setPolicy p v).cells = s.cells := rfl
@[simp] theorem State.allocation_setPolicy (p : Pair) (v : Policy) : (s.setPolicy p v).allocation = s.allocation := rfl
@[simp] theorem State.chipHistory_setPolicy (p : Pair) (v : Policy) : (s.setPolicy p v).chipHistory = s.chipHistory := rfl
@[simp] theorem State.intervals_setPolicy (p : Pair) (v : Policy) : (s.setPolicy p v).intervals = s.intervals := rfl
@[simp] theorem State.evaluation_setPolicy (p : Pair) (v : Policy) : (s.setPolicy p v).evaluation = s.evaluation := rfl
@[simp] theorem State.verdicts_setPolicy (p : Pair) (v : Policy) : (s.setPolicy p v).verdicts = s.verdicts := rfl
@[simp] theorem State.cmu_setPolicy (p : Pair) (v : Policy) : (s.setPolicy p v).cmu = s.cmu := rfl
@[simp] theorem State.queues_setPolicy (p : Pair) (v : Policy) : (s.setPolicy p v).queues = s.queues := rfl
@[simp] theorem State.homes_setPolicy (p : Pair) (v : Policy) : (s.setPolicy p v).homes = s.homes := rfl
@[simp] theorem State.pending_setPolicy (p : Pair) (v : Policy) : (s.setPolicy p v).pending = s.pending := rfl

/-! ### setVerdict -/

@[simp] theorem State.resetAsserted_setVerdict (p : Pair) (v : VerdictRegister) : (s.setVerdict p v).resetAsserted = s.resetAsserted := rfl
@[simp] theorem State.presenceLine_setVerdict (p : Pair) (v : VerdictRegister) : (s.setVerdict p v).presenceLine = s.presenceLine := rfl
@[simp] theorem State.losInput_setVerdict (p : Pair) (v : VerdictRegister) : (s.setVerdict p v).losInput = s.losInput := rfl
@[simp] theorem State.confirmInput_setVerdict (p : Pair) (v : VerdictRegister) : (s.setVerdict p v).confirmInput = s.confirmInput := rfl
@[simp] theorem State.straps_setVerdict (p : Pair) (v : VerdictRegister) : (s.setVerdict p v).straps = s.straps := rfl
@[simp] theorem State.epoch_setVerdict (p : Pair) (v : VerdictRegister) : (s.setVerdict p v).epoch = s.epoch := rfl
@[simp] theorem State.channels_setVerdict (p : Pair) (v : VerdictRegister) : (s.setVerdict p v).channels = s.channels := rfl
@[simp] theorem State.handed_setVerdict (p : Pair) (v : VerdictRegister) : (s.setVerdict p v).handed = s.handed := rfl
@[simp] theorem State.answers_setVerdict (p : Pair) (v : VerdictRegister) : (s.setVerdict p v).answers = s.answers := rfl
@[simp] theorem State.deferred_setVerdict (p : Pair) (v : VerdictRegister) : (s.setVerdict p v).deferred = s.deferred := rfl
@[simp] theorem State.views_setVerdict (p : Pair) (v : VerdictRegister) : (s.setVerdict p v).views = s.views := rfl
@[simp] theorem State.lineClaim_setVerdict (p : Pair) (v : VerdictRegister) : (s.setVerdict p v).lineClaim = s.lineClaim := rfl
@[simp] theorem State.tablesClaim_setVerdict (p : Pair) (v : VerdictRegister) : (s.setVerdict p v).tablesClaim = s.tablesClaim := rfl
@[simp] theorem State.alarms_setVerdict (p : Pair) (v : VerdictRegister) : (s.setVerdict p v).alarms = s.alarms := rfl
@[simp] theorem State.lineSetup_setVerdict (p : Pair) (v : VerdictRegister) : (s.setVerdict p v).lineSetup = s.lineSetup := rfl
@[simp] theorem State.housings_setVerdict (p : Pair) (v : VerdictRegister) : (s.setVerdict p v).housings = s.housings := rfl
@[simp] theorem State.templates_setVerdict (p : Pair) (v : VerdictRegister) : (s.setVerdict p v).templates = s.templates := rfl
@[simp] theorem State.watchPoints_setVerdict (p : Pair) (v : VerdictRegister) : (s.setVerdict p v).watchPoints = s.watchPoints := rfl
@[simp] theorem State.policies_setVerdict (p : Pair) (v : VerdictRegister) : (s.setVerdict p v).policies = s.policies := rfl
@[simp] theorem State.workQueue_setVerdict (p : Pair) (v : VerdictRegister) : (s.setVerdict p v).workQueue = s.workQueue := rfl
@[simp] theorem State.isolationQueue_setVerdict (p : Pair) (v : VerdictRegister) : (s.setVerdict p v).isolationQueue = s.isolationQueue := rfl
@[simp] theorem State.current_setVerdict (p : Pair) (v : VerdictRegister) : (s.setVerdict p v).current = s.current := rfl
@[simp] theorem State.position_setVerdict (p : Pair) (v : VerdictRegister) : (s.setVerdict p v).position = s.position := rfl
@[simp] theorem State.tagCounter_setVerdict (p : Pair) (v : VerdictRegister) : (s.setVerdict p v).tagCounter = s.tagCounter := rfl
@[simp] theorem State.generator_setVerdict (p : Pair) (v : VerdictRegister) : (s.setVerdict p v).generator = s.generator := rfl
@[simp] theorem State.chipTimer_setVerdict (p : Pair) (v : VerdictRegister) : (s.setVerdict p v).chipTimer = s.chipTimer := rfl
@[simp] theorem State.requested_setVerdict (p : Pair) (v : VerdictRegister) : (s.setVerdict p v).requested = s.requested := rfl
@[simp] theorem State.settleTimer_setVerdict (p : Pair) (v : VerdictRegister) : (s.setVerdict p v).settleTimer = s.settleTimer := rfl
@[simp] theorem State.clipCount_setVerdict (p : Pair) (v : VerdictRegister) : (s.setVerdict p v).clipCount = s.clipCount := rfl
@[simp] theorem State.cells_setVerdict (p : Pair) (v : VerdictRegister) : (s.setVerdict p v).cells = s.cells := rfl
@[simp] theorem State.allocation_setVerdict (p : Pair) (v : VerdictRegister) : (s.setVerdict p v).allocation = s.allocation := rfl
@[simp] theorem State.chipHistory_setVerdict (p : Pair) (v : VerdictRegister) : (s.setVerdict p v).chipHistory = s.chipHistory := rfl
@[simp] theorem State.intervals_setVerdict (p : Pair) (v : VerdictRegister) : (s.setVerdict p v).intervals = s.intervals := rfl
@[simp] theorem State.evaluation_setVerdict (p : Pair) (v : VerdictRegister) : (s.setVerdict p v).evaluation = s.evaluation := rfl
@[simp] theorem State.verdicts_setVerdict (p : Pair) (v : VerdictRegister) : (s.setVerdict p v).verdicts = Memory.write verdictDefault s.verdicts p.val v := rfl
@[simp] theorem State.cmu_setVerdict (p : Pair) (v : VerdictRegister) : (s.setVerdict p v).cmu = s.cmu := rfl
@[simp] theorem State.queues_setVerdict (p : Pair) (v : VerdictRegister) : (s.setVerdict p v).queues = s.queues := rfl
@[simp] theorem State.homes_setVerdict (p : Pair) (v : VerdictRegister) : (s.setVerdict p v).homes = s.homes := rfl
@[simp] theorem State.pending_setVerdict (p : Pair) (v : VerdictRegister) : (s.setVerdict p v).pending = s.pending := rfl

/-! ### setStatus -/

@[simp] theorem State.resetAsserted_setStatus (p : Pair) (v : IsolationStatus) : (s.setStatus p v).resetAsserted = s.resetAsserted := rfl
@[simp] theorem State.presenceLine_setStatus (p : Pair) (v : IsolationStatus) : (s.setStatus p v).presenceLine = s.presenceLine := rfl
@[simp] theorem State.losInput_setStatus (p : Pair) (v : IsolationStatus) : (s.setStatus p v).losInput = s.losInput := rfl
@[simp] theorem State.confirmInput_setStatus (p : Pair) (v : IsolationStatus) : (s.setStatus p v).confirmInput = s.confirmInput := rfl
@[simp] theorem State.straps_setStatus (p : Pair) (v : IsolationStatus) : (s.setStatus p v).straps = s.straps := rfl
@[simp] theorem State.epoch_setStatus (p : Pair) (v : IsolationStatus) : (s.setStatus p v).epoch = s.epoch := rfl
@[simp] theorem State.channels_setStatus (p : Pair) (v : IsolationStatus) : (s.setStatus p v).channels = s.channels := rfl
@[simp] theorem State.handed_setStatus (p : Pair) (v : IsolationStatus) : (s.setStatus p v).handed = s.handed := rfl
@[simp] theorem State.answers_setStatus (p : Pair) (v : IsolationStatus) : (s.setStatus p v).answers = s.answers := rfl
@[simp] theorem State.deferred_setStatus (p : Pair) (v : IsolationStatus) : (s.setStatus p v).deferred = s.deferred := rfl
@[simp] theorem State.views_setStatus (p : Pair) (v : IsolationStatus) : (s.setStatus p v).views = s.views := rfl
@[simp] theorem State.lineClaim_setStatus (p : Pair) (v : IsolationStatus) : (s.setStatus p v).lineClaim = s.lineClaim := rfl
@[simp] theorem State.tablesClaim_setStatus (p : Pair) (v : IsolationStatus) : (s.setStatus p v).tablesClaim = s.tablesClaim := rfl
@[simp] theorem State.alarms_setStatus (p : Pair) (v : IsolationStatus) : (s.setStatus p v).alarms = s.alarms := rfl
@[simp] theorem State.lineSetup_setStatus (p : Pair) (v : IsolationStatus) : (s.setStatus p v).lineSetup = s.lineSetup := rfl
@[simp] theorem State.housings_setStatus (p : Pair) (v : IsolationStatus) : (s.setStatus p v).housings = s.housings := rfl
@[simp] theorem State.templates_setStatus (p : Pair) (v : IsolationStatus) : (s.setStatus p v).templates = s.templates := rfl
@[simp] theorem State.watchPoints_setStatus (p : Pair) (v : IsolationStatus) : (s.setStatus p v).watchPoints = s.watchPoints := rfl
@[simp] theorem State.policies_setStatus (p : Pair) (v : IsolationStatus) : (s.setStatus p v).policies = s.policies := rfl
@[simp] theorem State.workQueue_setStatus (p : Pair) (v : IsolationStatus) : (s.setStatus p v).workQueue = s.workQueue := rfl
@[simp] theorem State.isolationQueue_setStatus (p : Pair) (v : IsolationStatus) : (s.setStatus p v).isolationQueue = s.isolationQueue := rfl
@[simp] theorem State.current_setStatus (p : Pair) (v : IsolationStatus) : (s.setStatus p v).current = s.current := rfl
@[simp] theorem State.position_setStatus (p : Pair) (v : IsolationStatus) : (s.setStatus p v).position = s.position := rfl
@[simp] theorem State.tagCounter_setStatus (p : Pair) (v : IsolationStatus) : (s.setStatus p v).tagCounter = s.tagCounter := rfl
@[simp] theorem State.generator_setStatus (p : Pair) (v : IsolationStatus) : (s.setStatus p v).generator = s.generator := rfl
@[simp] theorem State.chipTimer_setStatus (p : Pair) (v : IsolationStatus) : (s.setStatus p v).chipTimer = s.chipTimer := rfl
@[simp] theorem State.requested_setStatus (p : Pair) (v : IsolationStatus) : (s.setStatus p v).requested = s.requested := rfl
@[simp] theorem State.settleTimer_setStatus (p : Pair) (v : IsolationStatus) : (s.setStatus p v).settleTimer = s.settleTimer := rfl
@[simp] theorem State.clipCount_setStatus (p : Pair) (v : IsolationStatus) : (s.setStatus p v).clipCount = s.clipCount := rfl
@[simp] theorem State.cells_setStatus (p : Pair) (v : IsolationStatus) : (s.setStatus p v).cells = s.cells := rfl
@[simp] theorem State.allocation_setStatus (p : Pair) (v : IsolationStatus) : (s.setStatus p v).allocation = s.allocation := rfl
@[simp] theorem State.chipHistory_setStatus (p : Pair) (v : IsolationStatus) : (s.setStatus p v).chipHistory = s.chipHistory := rfl
@[simp] theorem State.intervals_setStatus (p : Pair) (v : IsolationStatus) : (s.setStatus p v).intervals = s.intervals := rfl
@[simp] theorem State.evaluation_setStatus (p : Pair) (v : IsolationStatus) : (s.setStatus p v).evaluation = s.evaluation := rfl
@[simp] theorem State.cmu_setStatus (p : Pair) (v : IsolationStatus) : (s.setStatus p v).cmu = s.cmu := rfl
@[simp] theorem State.queues_setStatus (p : Pair) (v : IsolationStatus) : (s.setStatus p v).queues = s.queues := rfl
@[simp] theorem State.homes_setStatus (p : Pair) (v : IsolationStatus) : (s.setStatus p v).homes = s.homes := rfl
@[simp] theorem State.pending_setStatus (p : Pair) (v : IsolationStatus) : (s.setStatus p v).pending = s.pending := rfl

/-! ### post -/

@[simp] theorem State.resetAsserted_post (q : RQ) (b : RecordBody) : (s.post q b).resetAsserted = s.resetAsserted := rfl
@[simp] theorem State.presenceLine_post (q : RQ) (b : RecordBody) : (s.post q b).presenceLine = s.presenceLine := rfl
@[simp] theorem State.losInput_post (q : RQ) (b : RecordBody) : (s.post q b).losInput = s.losInput := rfl
@[simp] theorem State.confirmInput_post (q : RQ) (b : RecordBody) : (s.post q b).confirmInput = s.confirmInput := rfl
@[simp] theorem State.straps_post (q : RQ) (b : RecordBody) : (s.post q b).straps = s.straps := rfl
@[simp] theorem State.epoch_post (q : RQ) (b : RecordBody) : (s.post q b).epoch = s.epoch := rfl
@[simp] theorem State.channels_post (q : RQ) (b : RecordBody) : (s.post q b).channels = s.channels := rfl
@[simp] theorem State.handed_post (q : RQ) (b : RecordBody) : (s.post q b).handed = s.handed := rfl
@[simp] theorem State.answers_post (q : RQ) (b : RecordBody) : (s.post q b).answers = s.answers := rfl
@[simp] theorem State.deferred_post (q : RQ) (b : RecordBody) : (s.post q b).deferred = s.deferred := rfl
@[simp] theorem State.views_post (q : RQ) (b : RecordBody) : (s.post q b).views = s.views := rfl
@[simp] theorem State.lineClaim_post (q : RQ) (b : RecordBody) : (s.post q b).lineClaim = s.lineClaim := rfl
@[simp] theorem State.tablesClaim_post (q : RQ) (b : RecordBody) : (s.post q b).tablesClaim = s.tablesClaim := rfl
@[simp] theorem State.alarms_post (q : RQ) (b : RecordBody) : (s.post q b).alarms = s.alarms := rfl
@[simp] theorem State.lineSetup_post (q : RQ) (b : RecordBody) : (s.post q b).lineSetup = s.lineSetup := rfl
@[simp] theorem State.housings_post (q : RQ) (b : RecordBody) : (s.post q b).housings = s.housings := rfl
@[simp] theorem State.templates_post (q : RQ) (b : RecordBody) : (s.post q b).templates = s.templates := rfl
@[simp] theorem State.watchPoints_post (q : RQ) (b : RecordBody) : (s.post q b).watchPoints = s.watchPoints := rfl
@[simp] theorem State.policies_post (q : RQ) (b : RecordBody) : (s.post q b).policies = s.policies := rfl
@[simp] theorem State.workQueue_post (q : RQ) (b : RecordBody) : (s.post q b).workQueue = s.workQueue := rfl
@[simp] theorem State.isolationQueue_post (q : RQ) (b : RecordBody) : (s.post q b).isolationQueue = s.isolationQueue := rfl
@[simp] theorem State.current_post (q : RQ) (b : RecordBody) : (s.post q b).current = s.current := rfl
@[simp] theorem State.position_post (q : RQ) (b : RecordBody) : (s.post q b).position = s.position := rfl
@[simp] theorem State.tagCounter_post (q : RQ) (b : RecordBody) : (s.post q b).tagCounter = s.tagCounter := rfl
@[simp] theorem State.generator_post (q : RQ) (b : RecordBody) : (s.post q b).generator = s.generator := rfl
@[simp] theorem State.chipTimer_post (q : RQ) (b : RecordBody) : (s.post q b).chipTimer = s.chipTimer := rfl
@[simp] theorem State.requested_post (q : RQ) (b : RecordBody) : (s.post q b).requested = s.requested := rfl
@[simp] theorem State.settleTimer_post (q : RQ) (b : RecordBody) : (s.post q b).settleTimer = s.settleTimer := rfl
@[simp] theorem State.clipCount_post (q : RQ) (b : RecordBody) : (s.post q b).clipCount = s.clipCount := rfl
@[simp] theorem State.cells_post (q : RQ) (b : RecordBody) : (s.post q b).cells = s.cells := rfl
@[simp] theorem State.allocation_post (q : RQ) (b : RecordBody) : (s.post q b).allocation = s.allocation := rfl
@[simp] theorem State.chipHistory_post (q : RQ) (b : RecordBody) : (s.post q b).chipHistory = s.chipHistory := rfl
@[simp] theorem State.intervals_post (q : RQ) (b : RecordBody) : (s.post q b).intervals = s.intervals := rfl
@[simp] theorem State.evaluation_post (q : RQ) (b : RecordBody) : (s.post q b).evaluation = s.evaluation := rfl
@[simp] theorem State.verdicts_post (q : RQ) (b : RecordBody) : (s.post q b).verdicts = s.verdicts := rfl
@[simp] theorem State.cmu_post (q : RQ) (b : RecordBody) : (s.post q b).cmu = s.cmu := rfl
@[simp] theorem State.queues_post (q : RQ) (b : RecordBody) : (s.post q b).queues = PerQueue.set s.queues q ((PerQueue.get s.queues q).accept ⟨b, s.epoch⟩) := rfl
@[simp] theorem State.homes_post (q : RQ) (b : RecordBody) : (s.post q b).homes = s.homes := rfl
@[simp] theorem State.pending_post (q : RQ) (b : RecordBody) : (s.post q b).pending = s.pending := rfl

/-! ### alarmSelector -/

@[simp] theorem State.resetAsserted_alarmSelector : s.alarmSelector.resetAsserted = s.resetAsserted := rfl
@[simp] theorem State.presenceLine_alarmSelector : s.alarmSelector.presenceLine = s.presenceLine := rfl
@[simp] theorem State.losInput_alarmSelector : s.alarmSelector.losInput = s.losInput := rfl
@[simp] theorem State.confirmInput_alarmSelector : s.alarmSelector.confirmInput = s.confirmInput := rfl
@[simp] theorem State.straps_alarmSelector : s.alarmSelector.straps = s.straps := rfl
@[simp] theorem State.epoch_alarmSelector : s.alarmSelector.epoch = s.epoch := rfl
@[simp] theorem State.channels_alarmSelector : s.alarmSelector.channels = s.channels := rfl
@[simp] theorem State.handed_alarmSelector : s.alarmSelector.handed = s.handed := rfl
@[simp] theorem State.answers_alarmSelector : s.alarmSelector.answers = s.answers := rfl
@[simp] theorem State.deferred_alarmSelector : s.alarmSelector.deferred = s.deferred := rfl
@[simp] theorem State.views_alarmSelector : s.alarmSelector.views = s.views := rfl
@[simp] theorem State.lineClaim_alarmSelector : s.alarmSelector.lineClaim = s.lineClaim := rfl
@[simp] theorem State.tablesClaim_alarmSelector : s.alarmSelector.tablesClaim = s.tablesClaim := rfl
@[simp] theorem State.alarms_alarmSelector : s.alarmSelector.alarms = { s.alarms with selectorFault := true } := rfl
@[simp] theorem State.lineSetup_alarmSelector : s.alarmSelector.lineSetup = s.lineSetup := rfl
@[simp] theorem State.housings_alarmSelector : s.alarmSelector.housings = s.housings := rfl
@[simp] theorem State.templates_alarmSelector : s.alarmSelector.templates = s.templates := rfl
@[simp] theorem State.watchPoints_alarmSelector : s.alarmSelector.watchPoints = s.watchPoints := rfl
@[simp] theorem State.policies_alarmSelector : s.alarmSelector.policies = s.policies := rfl
@[simp] theorem State.workQueue_alarmSelector : s.alarmSelector.workQueue = s.workQueue := rfl
@[simp] theorem State.isolationQueue_alarmSelector : s.alarmSelector.isolationQueue = s.isolationQueue := rfl
@[simp] theorem State.current_alarmSelector : s.alarmSelector.current = s.current := rfl
@[simp] theorem State.position_alarmSelector : s.alarmSelector.position = s.position := rfl
@[simp] theorem State.tagCounter_alarmSelector : s.alarmSelector.tagCounter = s.tagCounter := rfl
@[simp] theorem State.generator_alarmSelector : s.alarmSelector.generator = s.generator := rfl
@[simp] theorem State.chipTimer_alarmSelector : s.alarmSelector.chipTimer = s.chipTimer := rfl
@[simp] theorem State.requested_alarmSelector : s.alarmSelector.requested = s.requested := rfl
@[simp] theorem State.settleTimer_alarmSelector : s.alarmSelector.settleTimer = s.settleTimer := rfl
@[simp] theorem State.clipCount_alarmSelector : s.alarmSelector.clipCount = s.clipCount := rfl
@[simp] theorem State.cells_alarmSelector : s.alarmSelector.cells = s.cells := rfl
@[simp] theorem State.allocation_alarmSelector : s.alarmSelector.allocation = s.allocation := rfl
@[simp] theorem State.chipHistory_alarmSelector : s.alarmSelector.chipHistory = s.chipHistory := rfl
@[simp] theorem State.intervals_alarmSelector : s.alarmSelector.intervals = s.intervals := rfl
@[simp] theorem State.evaluation_alarmSelector : s.alarmSelector.evaluation = s.evaluation := rfl
@[simp] theorem State.verdicts_alarmSelector : s.alarmSelector.verdicts = s.verdicts := rfl
@[simp] theorem State.cmu_alarmSelector : s.alarmSelector.cmu = s.cmu := rfl
@[simp] theorem State.queues_alarmSelector : s.alarmSelector.queues = s.queues := rfl
@[simp] theorem State.homes_alarmSelector : s.alarmSelector.homes = s.homes := rfl
@[simp] theorem State.pending_alarmSelector : s.alarmSelector.pending = s.pending := rfl

/-! ### alarmLos -/

@[simp] theorem State.resetAsserted_alarmLos : s.alarmLos.resetAsserted = s.resetAsserted := rfl
@[simp] theorem State.presenceLine_alarmLos : s.alarmLos.presenceLine = s.presenceLine := rfl
@[simp] theorem State.losInput_alarmLos : s.alarmLos.losInput = s.losInput := rfl
@[simp] theorem State.confirmInput_alarmLos : s.alarmLos.confirmInput = s.confirmInput := rfl
@[simp] theorem State.straps_alarmLos : s.alarmLos.straps = s.straps := rfl
@[simp] theorem State.epoch_alarmLos : s.alarmLos.epoch = s.epoch := rfl
@[simp] theorem State.channels_alarmLos : s.alarmLos.channels = s.channels := rfl
@[simp] theorem State.handed_alarmLos : s.alarmLos.handed = s.handed := rfl
@[simp] theorem State.answers_alarmLos : s.alarmLos.answers = s.answers := rfl
@[simp] theorem State.deferred_alarmLos : s.alarmLos.deferred = s.deferred := rfl
@[simp] theorem State.views_alarmLos : s.alarmLos.views = s.views := rfl
@[simp] theorem State.lineClaim_alarmLos : s.alarmLos.lineClaim = s.lineClaim := rfl
@[simp] theorem State.tablesClaim_alarmLos : s.alarmLos.tablesClaim = s.tablesClaim := rfl
@[simp] theorem State.alarms_alarmLos : s.alarmLos.alarms = { s.alarms with receiverLos := true } := rfl
@[simp] theorem State.lineSetup_alarmLos : s.alarmLos.lineSetup = s.lineSetup := rfl
@[simp] theorem State.housings_alarmLos : s.alarmLos.housings = s.housings := rfl
@[simp] theorem State.templates_alarmLos : s.alarmLos.templates = s.templates := rfl
@[simp] theorem State.watchPoints_alarmLos : s.alarmLos.watchPoints = s.watchPoints := rfl
@[simp] theorem State.policies_alarmLos : s.alarmLos.policies = s.policies := rfl
@[simp] theorem State.workQueue_alarmLos : s.alarmLos.workQueue = s.workQueue := rfl
@[simp] theorem State.isolationQueue_alarmLos : s.alarmLos.isolationQueue = s.isolationQueue := rfl
@[simp] theorem State.current_alarmLos : s.alarmLos.current = s.current := rfl
@[simp] theorem State.position_alarmLos : s.alarmLos.position = s.position := rfl
@[simp] theorem State.tagCounter_alarmLos : s.alarmLos.tagCounter = s.tagCounter := rfl
@[simp] theorem State.generator_alarmLos : s.alarmLos.generator = s.generator := rfl
@[simp] theorem State.chipTimer_alarmLos : s.alarmLos.chipTimer = s.chipTimer := rfl
@[simp] theorem State.requested_alarmLos : s.alarmLos.requested = s.requested := rfl
@[simp] theorem State.settleTimer_alarmLos : s.alarmLos.settleTimer = s.settleTimer := rfl
@[simp] theorem State.clipCount_alarmLos : s.alarmLos.clipCount = s.clipCount := rfl
@[simp] theorem State.cells_alarmLos : s.alarmLos.cells = s.cells := rfl
@[simp] theorem State.allocation_alarmLos : s.alarmLos.allocation = s.allocation := rfl
@[simp] theorem State.chipHistory_alarmLos : s.alarmLos.chipHistory = s.chipHistory := rfl
@[simp] theorem State.intervals_alarmLos : s.alarmLos.intervals = s.intervals := rfl
@[simp] theorem State.evaluation_alarmLos : s.alarmLos.evaluation = s.evaluation := rfl
@[simp] theorem State.verdicts_alarmLos : s.alarmLos.verdicts = s.verdicts := rfl
@[simp] theorem State.cmu_alarmLos : s.alarmLos.cmu = s.cmu := rfl
@[simp] theorem State.queues_alarmLos : s.alarmLos.queues = s.queues := rfl
@[simp] theorem State.homes_alarmLos : s.alarmLos.homes = s.homes := rfl
@[simp] theorem State.pending_alarmLos : s.alarmLos.pending = s.pending := rfl

/-! ### alarmVerdict -/

@[simp] theorem State.resetAsserted_alarmVerdict (p : Pair) : (s.alarmVerdict p).resetAsserted = s.resetAsserted := rfl
@[simp] theorem State.presenceLine_alarmVerdict (p : Pair) : (s.alarmVerdict p).presenceLine = s.presenceLine := rfl
@[simp] theorem State.losInput_alarmVerdict (p : Pair) : (s.alarmVerdict p).losInput = s.losInput := rfl
@[simp] theorem State.confirmInput_alarmVerdict (p : Pair) : (s.alarmVerdict p).confirmInput = s.confirmInput := rfl
@[simp] theorem State.straps_alarmVerdict (p : Pair) : (s.alarmVerdict p).straps = s.straps := rfl
@[simp] theorem State.epoch_alarmVerdict (p : Pair) : (s.alarmVerdict p).epoch = s.epoch := rfl
@[simp] theorem State.channels_alarmVerdict (p : Pair) : (s.alarmVerdict p).channels = s.channels := rfl
@[simp] theorem State.handed_alarmVerdict (p : Pair) : (s.alarmVerdict p).handed = s.handed := rfl
@[simp] theorem State.answers_alarmVerdict (p : Pair) : (s.alarmVerdict p).answers = s.answers := rfl
@[simp] theorem State.deferred_alarmVerdict (p : Pair) : (s.alarmVerdict p).deferred = s.deferred := rfl
@[simp] theorem State.views_alarmVerdict (p : Pair) : (s.alarmVerdict p).views = s.views := rfl
@[simp] theorem State.lineClaim_alarmVerdict (p : Pair) : (s.alarmVerdict p).lineClaim = s.lineClaim := rfl
@[simp] theorem State.tablesClaim_alarmVerdict (p : Pair) : (s.alarmVerdict p).tablesClaim = s.tablesClaim := rfl
@[simp] theorem State.lineSetup_alarmVerdict (p : Pair) : (s.alarmVerdict p).lineSetup = s.lineSetup := rfl
@[simp] theorem State.housings_alarmVerdict (p : Pair) : (s.alarmVerdict p).housings = s.housings := rfl
@[simp] theorem State.templates_alarmVerdict (p : Pair) : (s.alarmVerdict p).templates = s.templates := rfl
@[simp] theorem State.watchPoints_alarmVerdict (p : Pair) : (s.alarmVerdict p).watchPoints = s.watchPoints := rfl
@[simp] theorem State.policies_alarmVerdict (p : Pair) : (s.alarmVerdict p).policies = s.policies := rfl
@[simp] theorem State.workQueue_alarmVerdict (p : Pair) : (s.alarmVerdict p).workQueue = s.workQueue := rfl
@[simp] theorem State.isolationQueue_alarmVerdict (p : Pair) : (s.alarmVerdict p).isolationQueue = s.isolationQueue := rfl
@[simp] theorem State.current_alarmVerdict (p : Pair) : (s.alarmVerdict p).current = s.current := rfl
@[simp] theorem State.position_alarmVerdict (p : Pair) : (s.alarmVerdict p).position = s.position := rfl
@[simp] theorem State.tagCounter_alarmVerdict (p : Pair) : (s.alarmVerdict p).tagCounter = s.tagCounter := rfl
@[simp] theorem State.generator_alarmVerdict (p : Pair) : (s.alarmVerdict p).generator = s.generator := rfl
@[simp] theorem State.chipTimer_alarmVerdict (p : Pair) : (s.alarmVerdict p).chipTimer = s.chipTimer := rfl
@[simp] theorem State.requested_alarmVerdict (p : Pair) : (s.alarmVerdict p).requested = s.requested := rfl
@[simp] theorem State.settleTimer_alarmVerdict (p : Pair) : (s.alarmVerdict p).settleTimer = s.settleTimer := rfl
@[simp] theorem State.clipCount_alarmVerdict (p : Pair) : (s.alarmVerdict p).clipCount = s.clipCount := rfl
@[simp] theorem State.cells_alarmVerdict (p : Pair) : (s.alarmVerdict p).cells = s.cells := rfl
@[simp] theorem State.allocation_alarmVerdict (p : Pair) : (s.alarmVerdict p).allocation = s.allocation := rfl
@[simp] theorem State.chipHistory_alarmVerdict (p : Pair) : (s.alarmVerdict p).chipHistory = s.chipHistory := rfl
@[simp] theorem State.intervals_alarmVerdict (p : Pair) : (s.alarmVerdict p).intervals = s.intervals := rfl
@[simp] theorem State.evaluation_alarmVerdict (p : Pair) : (s.alarmVerdict p).evaluation = s.evaluation := rfl
@[simp] theorem State.verdicts_alarmVerdict (p : Pair) : (s.alarmVerdict p).verdicts = s.verdicts := rfl
@[simp] theorem State.cmu_alarmVerdict (p : Pair) : (s.alarmVerdict p).cmu = s.cmu := rfl
@[simp] theorem State.queues_alarmVerdict (p : Pair) : (s.alarmVerdict p).queues = s.queues := rfl
@[simp] theorem State.homes_alarmVerdict (p : Pair) : (s.alarmVerdict p).homes = s.homes := rfl
@[simp] theorem State.pending_alarmVerdict (p : Pair) : (s.alarmVerdict p).pending = s.pending := rfl

/-! ### withdraw -/

@[simp] theorem State.resetAsserted_withdraw (f : Work → Bool) : (s.withdraw f).resetAsserted = s.resetAsserted := rfl
@[simp] theorem State.presenceLine_withdraw (f : Work → Bool) : (s.withdraw f).presenceLine = s.presenceLine := rfl
@[simp] theorem State.losInput_withdraw (f : Work → Bool) : (s.withdraw f).losInput = s.losInput := rfl
@[simp] theorem State.confirmInput_withdraw (f : Work → Bool) : (s.withdraw f).confirmInput = s.confirmInput := rfl
@[simp] theorem State.straps_withdraw (f : Work → Bool) : (s.withdraw f).straps = s.straps := rfl
@[simp] theorem State.epoch_withdraw (f : Work → Bool) : (s.withdraw f).epoch = s.epoch := rfl
@[simp] theorem State.channels_withdraw (f : Work → Bool) : (s.withdraw f).channels = s.channels := rfl
@[simp] theorem State.handed_withdraw (f : Work → Bool) : (s.withdraw f).handed = s.handed := rfl
@[simp] theorem State.answers_withdraw (f : Work → Bool) : (s.withdraw f).answers = s.answers := rfl
@[simp] theorem State.deferred_withdraw (f : Work → Bool) : (s.withdraw f).deferred = s.deferred := rfl
@[simp] theorem State.views_withdraw (f : Work → Bool) : (s.withdraw f).views = s.views := rfl
@[simp] theorem State.lineClaim_withdraw (f : Work → Bool) : (s.withdraw f).lineClaim = s.lineClaim := rfl
@[simp] theorem State.tablesClaim_withdraw (f : Work → Bool) : (s.withdraw f).tablesClaim = s.tablesClaim := rfl
@[simp] theorem State.alarms_withdraw (f : Work → Bool) : (s.withdraw f).alarms = s.alarms := rfl
@[simp] theorem State.lineSetup_withdraw (f : Work → Bool) : (s.withdraw f).lineSetup = s.lineSetup := rfl
@[simp] theorem State.housings_withdraw (f : Work → Bool) : (s.withdraw f).housings = s.housings := rfl
@[simp] theorem State.templates_withdraw (f : Work → Bool) : (s.withdraw f).templates = s.templates := rfl
@[simp] theorem State.watchPoints_withdraw (f : Work → Bool) : (s.withdraw f).watchPoints = s.watchPoints := rfl
@[simp] theorem State.policies_withdraw (f : Work → Bool) : (s.withdraw f).policies = s.policies := rfl
@[simp] theorem State.workQueue_withdraw (f : Work → Bool) : (s.withdraw f).workQueue = s.workQueue := rfl
@[simp] theorem State.isolationQueue_withdraw (f : Work → Bool) : (s.withdraw f).isolationQueue = s.isolationQueue.filter fun w => !f w := rfl
@[simp] theorem State.current_withdraw (f : Work → Bool) : (s.withdraw f).current = s.current := rfl
@[simp] theorem State.position_withdraw (f : Work → Bool) : (s.withdraw f).position = s.position := rfl
@[simp] theorem State.tagCounter_withdraw (f : Work → Bool) : (s.withdraw f).tagCounter = s.tagCounter := rfl
@[simp] theorem State.generator_withdraw (f : Work → Bool) : (s.withdraw f).generator = s.generator := rfl
@[simp] theorem State.chipTimer_withdraw (f : Work → Bool) : (s.withdraw f).chipTimer = s.chipTimer := rfl
@[simp] theorem State.requested_withdraw (f : Work → Bool) : (s.withdraw f).requested = s.requested := rfl
@[simp] theorem State.settleTimer_withdraw (f : Work → Bool) : (s.withdraw f).settleTimer = s.settleTimer := rfl
@[simp] theorem State.clipCount_withdraw (f : Work → Bool) : (s.withdraw f).clipCount = s.clipCount := rfl
@[simp] theorem State.cells_withdraw (f : Work → Bool) : (s.withdraw f).cells = s.cells := rfl
@[simp] theorem State.allocation_withdraw (f : Work → Bool) : (s.withdraw f).allocation = s.allocation := rfl
@[simp] theorem State.chipHistory_withdraw (f : Work → Bool) : (s.withdraw f).chipHistory = s.chipHistory := rfl
@[simp] theorem State.intervals_withdraw (f : Work → Bool) : (s.withdraw f).intervals = s.intervals := rfl
@[simp] theorem State.evaluation_withdraw (f : Work → Bool) : (s.withdraw f).evaluation = s.evaluation := rfl
@[simp] theorem State.verdicts_withdraw (f : Work → Bool) : (s.withdraw f).verdicts = s.verdicts := rfl
@[simp] theorem State.cmu_withdraw (f : Work → Bool) : (s.withdraw f).cmu = s.cmu := rfl
@[simp] theorem State.queues_withdraw (f : Work → Bool) : (s.withdraw f).queues = s.queues := rfl
@[simp] theorem State.homes_withdraw (f : Work → Bool) : (s.withdraw f).homes = s.homes := rfl
@[simp] theorem State.pending_withdraw (f : Work → Bool) : (s.withdraw f).pending = s.pending := rfl

/-! ### enqueue -/

@[simp] theorem State.resetAsserted_enqueue (o : Origin) (p : Pair) (k : WorkKind) : (s.enqueue o p k).resetAsserted = s.resetAsserted := rfl
@[simp] theorem State.presenceLine_enqueue (o : Origin) (p : Pair) (k : WorkKind) : (s.enqueue o p k).presenceLine = s.presenceLine := rfl
@[simp] theorem State.losInput_enqueue (o : Origin) (p : Pair) (k : WorkKind) : (s.enqueue o p k).losInput = s.losInput := rfl
@[simp] theorem State.confirmInput_enqueue (o : Origin) (p : Pair) (k : WorkKind) : (s.enqueue o p k).confirmInput = s.confirmInput := rfl
@[simp] theorem State.straps_enqueue (o : Origin) (p : Pair) (k : WorkKind) : (s.enqueue o p k).straps = s.straps := rfl
@[simp] theorem State.epoch_enqueue (o : Origin) (p : Pair) (k : WorkKind) : (s.enqueue o p k).epoch = s.epoch := rfl
@[simp] theorem State.channels_enqueue (o : Origin) (p : Pair) (k : WorkKind) : (s.enqueue o p k).channels = s.channels := rfl
@[simp] theorem State.handed_enqueue (o : Origin) (p : Pair) (k : WorkKind) : (s.enqueue o p k).handed = s.handed := rfl
@[simp] theorem State.answers_enqueue (o : Origin) (p : Pair) (k : WorkKind) : (s.enqueue o p k).answers = s.answers := rfl
@[simp] theorem State.deferred_enqueue (o : Origin) (p : Pair) (k : WorkKind) : (s.enqueue o p k).deferred = s.deferred := rfl
@[simp] theorem State.views_enqueue (o : Origin) (p : Pair) (k : WorkKind) : (s.enqueue o p k).views = s.views := rfl
@[simp] theorem State.lineClaim_enqueue (o : Origin) (p : Pair) (k : WorkKind) : (s.enqueue o p k).lineClaim = s.lineClaim := rfl
@[simp] theorem State.tablesClaim_enqueue (o : Origin) (p : Pair) (k : WorkKind) : (s.enqueue o p k).tablesClaim = s.tablesClaim := rfl
@[simp] theorem State.alarms_enqueue (o : Origin) (p : Pair) (k : WorkKind) : (s.enqueue o p k).alarms = s.alarms := rfl
@[simp] theorem State.lineSetup_enqueue (o : Origin) (p : Pair) (k : WorkKind) : (s.enqueue o p k).lineSetup = s.lineSetup := rfl
@[simp] theorem State.housings_enqueue (o : Origin) (p : Pair) (k : WorkKind) : (s.enqueue o p k).housings = s.housings := rfl
@[simp] theorem State.templates_enqueue (o : Origin) (p : Pair) (k : WorkKind) : (s.enqueue o p k).templates = s.templates := rfl
@[simp] theorem State.watchPoints_enqueue (o : Origin) (p : Pair) (k : WorkKind) : (s.enqueue o p k).watchPoints = s.watchPoints := rfl
@[simp] theorem State.policies_enqueue (o : Origin) (p : Pair) (k : WorkKind) : (s.enqueue o p k).policies = s.policies := rfl
@[simp] theorem State.workQueue_enqueue (o : Origin) (p : Pair) (k : WorkKind) : (s.enqueue o p k).workQueue = s.workQueue ++ [⟨s.nextTag, o, p, k⟩] := rfl
@[simp] theorem State.isolationQueue_enqueue (o : Origin) (p : Pair) (k : WorkKind) : (s.enqueue o p k).isolationQueue = s.isolationQueue := rfl
@[simp] theorem State.current_enqueue (o : Origin) (p : Pair) (k : WorkKind) : (s.enqueue o p k).current = s.current := rfl
@[simp] theorem State.position_enqueue (o : Origin) (p : Pair) (k : WorkKind) : (s.enqueue o p k).position = s.position := rfl
@[simp] theorem State.tagCounter_enqueue (o : Origin) (p : Pair) (k : WorkKind) : (s.enqueue o p k).tagCounter = s.nextTag + 1 := rfl
@[simp] theorem State.generator_enqueue (o : Origin) (p : Pair) (k : WorkKind) : (s.enqueue o p k).generator = s.generator := rfl
@[simp] theorem State.chipTimer_enqueue (o : Origin) (p : Pair) (k : WorkKind) : (s.enqueue o p k).chipTimer = s.chipTimer := rfl
@[simp] theorem State.requested_enqueue (o : Origin) (p : Pair) (k : WorkKind) : (s.enqueue o p k).requested = s.requested := rfl
@[simp] theorem State.settleTimer_enqueue (o : Origin) (p : Pair) (k : WorkKind) : (s.enqueue o p k).settleTimer = s.settleTimer := rfl
@[simp] theorem State.clipCount_enqueue (o : Origin) (p : Pair) (k : WorkKind) : (s.enqueue o p k).clipCount = s.clipCount := rfl
@[simp] theorem State.cells_enqueue (o : Origin) (p : Pair) (k : WorkKind) : (s.enqueue o p k).cells = s.cells := rfl
@[simp] theorem State.allocation_enqueue (o : Origin) (p : Pair) (k : WorkKind) : (s.enqueue o p k).allocation = s.allocation := rfl
@[simp] theorem State.chipHistory_enqueue (o : Origin) (p : Pair) (k : WorkKind) : (s.enqueue o p k).chipHistory = s.chipHistory := rfl
@[simp] theorem State.intervals_enqueue (o : Origin) (p : Pair) (k : WorkKind) : (s.enqueue o p k).intervals = s.intervals := rfl
@[simp] theorem State.evaluation_enqueue (o : Origin) (p : Pair) (k : WorkKind) : (s.enqueue o p k).evaluation = s.evaluation := rfl
@[simp] theorem State.verdicts_enqueue (o : Origin) (p : Pair) (k : WorkKind) : (s.enqueue o p k).verdicts = s.verdicts := rfl
@[simp] theorem State.cmu_enqueue (o : Origin) (p : Pair) (k : WorkKind) : (s.enqueue o p k).cmu = s.cmu := rfl
@[simp] theorem State.queues_enqueue (o : Origin) (p : Pair) (k : WorkKind) : (s.enqueue o p k).queues = s.queues := rfl
@[simp] theorem State.homes_enqueue (o : Origin) (p : Pair) (k : WorkKind) : (s.enqueue o p k).homes = s.homes := rfl
@[simp] theorem State.pending_enqueue (o : Origin) (p : Pair) (k : WorkKind) : (s.enqueue o p k).pending = s.pending := rfl

/-! ### placeIsolation -/

@[simp] theorem State.resetAsserted_placeIsolation (p : Pair) (h : Nat) : (s.placeIsolation p h).resetAsserted = s.resetAsserted := rfl
@[simp] theorem State.presenceLine_placeIsolation (p : Pair) (h : Nat) : (s.placeIsolation p h).presenceLine = s.presenceLine := rfl
@[simp] theorem State.losInput_placeIsolation (p : Pair) (h : Nat) : (s.placeIsolation p h).losInput = s.losInput := rfl
@[simp] theorem State.confirmInput_placeIsolation (p : Pair) (h : Nat) : (s.placeIsolation p h).confirmInput = s.confirmInput := rfl
@[simp] theorem State.straps_placeIsolation (p : Pair) (h : Nat) : (s.placeIsolation p h).straps = s.straps := rfl
@[simp] theorem State.epoch_placeIsolation (p : Pair) (h : Nat) : (s.placeIsolation p h).epoch = s.epoch := rfl
@[simp] theorem State.channels_placeIsolation (p : Pair) (h : Nat) : (s.placeIsolation p h).channels = s.channels := rfl
@[simp] theorem State.handed_placeIsolation (p : Pair) (h : Nat) : (s.placeIsolation p h).handed = s.handed := rfl
@[simp] theorem State.answers_placeIsolation (p : Pair) (h : Nat) : (s.placeIsolation p h).answers = s.answers := rfl
@[simp] theorem State.deferred_placeIsolation (p : Pair) (h : Nat) : (s.placeIsolation p h).deferred = s.deferred := rfl
@[simp] theorem State.views_placeIsolation (p : Pair) (h : Nat) : (s.placeIsolation p h).views = s.views := rfl
@[simp] theorem State.lineClaim_placeIsolation (p : Pair) (h : Nat) : (s.placeIsolation p h).lineClaim = s.lineClaim := rfl
@[simp] theorem State.tablesClaim_placeIsolation (p : Pair) (h : Nat) : (s.placeIsolation p h).tablesClaim = s.tablesClaim := rfl
@[simp] theorem State.alarms_placeIsolation (p : Pair) (h : Nat) : (s.placeIsolation p h).alarms = s.alarms := rfl
@[simp] theorem State.lineSetup_placeIsolation (p : Pair) (h : Nat) : (s.placeIsolation p h).lineSetup = s.lineSetup := rfl
@[simp] theorem State.housings_placeIsolation (p : Pair) (h : Nat) : (s.placeIsolation p h).housings = s.housings := rfl
@[simp] theorem State.templates_placeIsolation (p : Pair) (h : Nat) : (s.placeIsolation p h).templates = s.templates := rfl
@[simp] theorem State.watchPoints_placeIsolation (p : Pair) (h : Nat) : (s.placeIsolation p h).watchPoints = s.watchPoints := rfl
@[simp] theorem State.policies_placeIsolation (p : Pair) (h : Nat) : (s.placeIsolation p h).policies = s.policies := rfl
@[simp] theorem State.workQueue_placeIsolation (p : Pair) (h : Nat) : (s.placeIsolation p h).workQueue = s.workQueue := rfl
@[simp] theorem State.current_placeIsolation (p : Pair) (h : Nat) : (s.placeIsolation p h).current = s.current := rfl
@[simp] theorem State.position_placeIsolation (p : Pair) (h : Nat) : (s.placeIsolation p h).position = s.position := rfl
@[simp] theorem State.generator_placeIsolation (p : Pair) (h : Nat) : (s.placeIsolation p h).generator = s.generator := rfl
@[simp] theorem State.chipTimer_placeIsolation (p : Pair) (h : Nat) : (s.placeIsolation p h).chipTimer = s.chipTimer := rfl
@[simp] theorem State.requested_placeIsolation (p : Pair) (h : Nat) : (s.placeIsolation p h).requested = s.requested := rfl
@[simp] theorem State.settleTimer_placeIsolation (p : Pair) (h : Nat) : (s.placeIsolation p h).settleTimer = s.settleTimer := rfl
@[simp] theorem State.clipCount_placeIsolation (p : Pair) (h : Nat) : (s.placeIsolation p h).clipCount = s.clipCount := rfl
@[simp] theorem State.cells_placeIsolation (p : Pair) (h : Nat) : (s.placeIsolation p h).cells = s.cells := rfl
@[simp] theorem State.allocation_placeIsolation (p : Pair) (h : Nat) : (s.placeIsolation p h).allocation = s.allocation := rfl
@[simp] theorem State.chipHistory_placeIsolation (p : Pair) (h : Nat) : (s.placeIsolation p h).chipHistory = s.chipHistory := rfl
@[simp] theorem State.intervals_placeIsolation (p : Pair) (h : Nat) : (s.placeIsolation p h).intervals = s.intervals := rfl
@[simp] theorem State.evaluation_placeIsolation (p : Pair) (h : Nat) : (s.placeIsolation p h).evaluation = s.evaluation := rfl
@[simp] theorem State.verdicts_placeIsolation (p : Pair) (h : Nat) : (s.placeIsolation p h).verdicts = s.verdicts := rfl
@[simp] theorem State.cmu_placeIsolation (p : Pair) (h : Nat) : (s.placeIsolation p h).cmu = s.cmu := rfl
@[simp] theorem State.queues_placeIsolation (p : Pair) (h : Nat) : (s.placeIsolation p h).queues = s.queues := rfl
@[simp] theorem State.homes_placeIsolation (p : Pair) (h : Nat) : (s.placeIsolation p h).homes = s.homes := rfl
@[simp] theorem State.pending_placeIsolation (p : Pair) (h : Nat) : (s.placeIsolation p h).pending = s.pending := rfl

/-! ### answer -/

@[simp] theorem State.resetAsserted_answer (h : Handed) (r : Reply) : (s.answer h r).resetAsserted = s.resetAsserted := rfl
@[simp] theorem State.presenceLine_answer (h : Handed) (r : Reply) : (s.answer h r).presenceLine = s.presenceLine := rfl
@[simp] theorem State.losInput_answer (h : Handed) (r : Reply) : (s.answer h r).losInput = s.losInput := rfl
@[simp] theorem State.confirmInput_answer (h : Handed) (r : Reply) : (s.answer h r).confirmInput = s.confirmInput := rfl
@[simp] theorem State.straps_answer (h : Handed) (r : Reply) : (s.answer h r).straps = s.straps := rfl
@[simp] theorem State.epoch_answer (h : Handed) (r : Reply) : (s.answer h r).epoch = s.epoch := rfl
@[simp] theorem State.channels_answer (h : Handed) (r : Reply) : (s.answer h r).channels = s.channels := rfl
@[simp] theorem State.handed_answer (h : Handed) (r : Reply) : (s.answer h r).handed = s.handed := rfl
@[simp] theorem State.answers_answer (h : Handed) (r : Reply) : (s.answer h r).answers = s.answers ++ [⟨h.channel, h.live, r⟩] := rfl
@[simp] theorem State.deferred_answer (h : Handed) (r : Reply) : (s.answer h r).deferred = s.deferred := rfl
@[simp] theorem State.views_answer (h : Handed) (r : Reply) : (s.answer h r).views = s.views := rfl
@[simp] theorem State.lineClaim_answer (h : Handed) (r : Reply) : (s.answer h r).lineClaim = s.lineClaim := rfl
@[simp] theorem State.tablesClaim_answer (h : Handed) (r : Reply) : (s.answer h r).tablesClaim = s.tablesClaim := rfl
@[simp] theorem State.alarms_answer (h : Handed) (r : Reply) : (s.answer h r).alarms = s.alarms := rfl
@[simp] theorem State.lineSetup_answer (h : Handed) (r : Reply) : (s.answer h r).lineSetup = s.lineSetup := rfl
@[simp] theorem State.housings_answer (h : Handed) (r : Reply) : (s.answer h r).housings = s.housings := rfl
@[simp] theorem State.templates_answer (h : Handed) (r : Reply) : (s.answer h r).templates = s.templates := rfl
@[simp] theorem State.watchPoints_answer (h : Handed) (r : Reply) : (s.answer h r).watchPoints = s.watchPoints := rfl
@[simp] theorem State.policies_answer (h : Handed) (r : Reply) : (s.answer h r).policies = s.policies := rfl
@[simp] theorem State.workQueue_answer (h : Handed) (r : Reply) : (s.answer h r).workQueue = s.workQueue := rfl
@[simp] theorem State.isolationQueue_answer (h : Handed) (r : Reply) : (s.answer h r).isolationQueue = s.isolationQueue := rfl
@[simp] theorem State.current_answer (h : Handed) (r : Reply) : (s.answer h r).current = s.current := rfl
@[simp] theorem State.position_answer (h : Handed) (r : Reply) : (s.answer h r).position = s.position := rfl
@[simp] theorem State.tagCounter_answer (h : Handed) (r : Reply) : (s.answer h r).tagCounter = s.tagCounter := rfl
@[simp] theorem State.generator_answer (h : Handed) (r : Reply) : (s.answer h r).generator = s.generator := rfl
@[simp] theorem State.chipTimer_answer (h : Handed) (r : Reply) : (s.answer h r).chipTimer = s.chipTimer := rfl
@[simp] theorem State.requested_answer (h : Handed) (r : Reply) : (s.answer h r).requested = s.requested := rfl
@[simp] theorem State.settleTimer_answer (h : Handed) (r : Reply) : (s.answer h r).settleTimer = s.settleTimer := rfl
@[simp] theorem State.clipCount_answer (h : Handed) (r : Reply) : (s.answer h r).clipCount = s.clipCount := rfl
@[simp] theorem State.cells_answer (h : Handed) (r : Reply) : (s.answer h r).cells = s.cells := rfl
@[simp] theorem State.allocation_answer (h : Handed) (r : Reply) : (s.answer h r).allocation = s.allocation := rfl
@[simp] theorem State.chipHistory_answer (h : Handed) (r : Reply) : (s.answer h r).chipHistory = s.chipHistory := rfl
@[simp] theorem State.intervals_answer (h : Handed) (r : Reply) : (s.answer h r).intervals = s.intervals := rfl
@[simp] theorem State.evaluation_answer (h : Handed) (r : Reply) : (s.answer h r).evaluation = s.evaluation := rfl
@[simp] theorem State.verdicts_answer (h : Handed) (r : Reply) : (s.answer h r).verdicts = s.verdicts := rfl
@[simp] theorem State.cmu_answer (h : Handed) (r : Reply) : (s.answer h r).cmu = s.cmu := rfl
@[simp] theorem State.queues_answer (h : Handed) (r : Reply) : (s.answer h r).queues = s.queues := rfl
@[simp] theorem State.homes_answer (h : Handed) (r : Reply) : (s.answer h r).homes = s.homes := rfl
@[simp] theorem State.pending_answer (h : Handed) (r : Reply) : (s.answer h r).pending = s.pending := rfl

/-! ### taken -/

@[simp] theorem State.resetAsserted_taken (ch : Channel) (r : Request) : (s.taken ch r).resetAsserted = s.resetAsserted := rfl
@[simp] theorem State.presenceLine_taken (ch : Channel) (r : Request) : (s.taken ch r).presenceLine = s.presenceLine := rfl
@[simp] theorem State.losInput_taken (ch : Channel) (r : Request) : (s.taken ch r).losInput = s.losInput := rfl
@[simp] theorem State.confirmInput_taken (ch : Channel) (r : Request) : (s.taken ch r).confirmInput = s.confirmInput := rfl
@[simp] theorem State.straps_taken (ch : Channel) (r : Request) : (s.taken ch r).straps = s.straps := rfl
@[simp] theorem State.epoch_taken (ch : Channel) (r : Request) : (s.taken ch r).epoch = s.epoch := rfl
@[simp] theorem State.channels_taken (ch : Channel) (r : Request) : (s.taken ch r).channels = s.channels := rfl
@[simp] theorem State.handed_taken (ch : Channel) (r : Request) : (s.taken ch r).handed = s.handed.eraseP (Handed.is ch r) := rfl
@[simp] theorem State.answers_taken (ch : Channel) (r : Request) : (s.taken ch r).answers = s.answers := rfl
@[simp] theorem State.deferred_taken (ch : Channel) (r : Request) : (s.taken ch r).deferred = s.deferred := rfl
@[simp] theorem State.views_taken (ch : Channel) (r : Request) : (s.taken ch r).views = s.views := rfl
@[simp] theorem State.lineClaim_taken (ch : Channel) (r : Request) : (s.taken ch r).lineClaim = s.lineClaim := rfl
@[simp] theorem State.tablesClaim_taken (ch : Channel) (r : Request) : (s.taken ch r).tablesClaim = s.tablesClaim := rfl
@[simp] theorem State.alarms_taken (ch : Channel) (r : Request) : (s.taken ch r).alarms = s.alarms := rfl
@[simp] theorem State.lineSetup_taken (ch : Channel) (r : Request) : (s.taken ch r).lineSetup = s.lineSetup := rfl
@[simp] theorem State.housings_taken (ch : Channel) (r : Request) : (s.taken ch r).housings = s.housings := rfl
@[simp] theorem State.templates_taken (ch : Channel) (r : Request) : (s.taken ch r).templates = s.templates := rfl
@[simp] theorem State.watchPoints_taken (ch : Channel) (r : Request) : (s.taken ch r).watchPoints = s.watchPoints := rfl
@[simp] theorem State.policies_taken (ch : Channel) (r : Request) : (s.taken ch r).policies = s.policies := rfl
@[simp] theorem State.workQueue_taken (ch : Channel) (r : Request) : (s.taken ch r).workQueue = s.workQueue := rfl
@[simp] theorem State.isolationQueue_taken (ch : Channel) (r : Request) : (s.taken ch r).isolationQueue = s.isolationQueue := rfl
@[simp] theorem State.current_taken (ch : Channel) (r : Request) : (s.taken ch r).current = s.current := rfl
@[simp] theorem State.position_taken (ch : Channel) (r : Request) : (s.taken ch r).position = s.position := rfl
@[simp] theorem State.tagCounter_taken (ch : Channel) (r : Request) : (s.taken ch r).tagCounter = s.tagCounter := rfl
@[simp] theorem State.generator_taken (ch : Channel) (r : Request) : (s.taken ch r).generator = s.generator := rfl
@[simp] theorem State.chipTimer_taken (ch : Channel) (r : Request) : (s.taken ch r).chipTimer = s.chipTimer := rfl
@[simp] theorem State.requested_taken (ch : Channel) (r : Request) : (s.taken ch r).requested = s.requested := rfl
@[simp] theorem State.settleTimer_taken (ch : Channel) (r : Request) : (s.taken ch r).settleTimer = s.settleTimer := rfl
@[simp] theorem State.clipCount_taken (ch : Channel) (r : Request) : (s.taken ch r).clipCount = s.clipCount := rfl
@[simp] theorem State.cells_taken (ch : Channel) (r : Request) : (s.taken ch r).cells = s.cells := rfl
@[simp] theorem State.allocation_taken (ch : Channel) (r : Request) : (s.taken ch r).allocation = s.allocation := rfl
@[simp] theorem State.chipHistory_taken (ch : Channel) (r : Request) : (s.taken ch r).chipHistory = s.chipHistory := rfl
@[simp] theorem State.intervals_taken (ch : Channel) (r : Request) : (s.taken ch r).intervals = s.intervals := rfl
@[simp] theorem State.evaluation_taken (ch : Channel) (r : Request) : (s.taken ch r).evaluation = s.evaluation := rfl
@[simp] theorem State.verdicts_taken (ch : Channel) (r : Request) : (s.taken ch r).verdicts = s.verdicts := rfl
@[simp] theorem State.cmu_taken (ch : Channel) (r : Request) : (s.taken ch r).cmu = s.cmu := rfl
@[simp] theorem State.queues_taken (ch : Channel) (r : Request) : (s.taken ch r).queues = s.queues := rfl
@[simp] theorem State.homes_taken (ch : Channel) (r : Request) : (s.taken ch r).homes = s.homes := rfl
@[simp] theorem State.pending_taken (ch : Channel) (r : Request) : (s.taken ch r).pending = s.pending := rfl

/-! ### setCcu -/

@[simp] theorem State.resetAsserted_setCcu (ch : Channel) (u : ChannelUnit) : (s.setCcu ch u).resetAsserted = s.resetAsserted := rfl
@[simp] theorem State.presenceLine_setCcu (ch : Channel) (u : ChannelUnit) : (s.setCcu ch u).presenceLine = s.presenceLine := rfl
@[simp] theorem State.losInput_setCcu (ch : Channel) (u : ChannelUnit) : (s.setCcu ch u).losInput = s.losInput := rfl
@[simp] theorem State.confirmInput_setCcu (ch : Channel) (u : ChannelUnit) : (s.setCcu ch u).confirmInput = s.confirmInput := rfl
@[simp] theorem State.straps_setCcu (ch : Channel) (u : ChannelUnit) : (s.setCcu ch u).straps = s.straps := rfl
@[simp] theorem State.epoch_setCcu (ch : Channel) (u : ChannelUnit) : (s.setCcu ch u).epoch = s.epoch := rfl
@[simp] theorem State.channels_setCcu (ch : Channel) (u : ChannelUnit) : (s.setCcu ch u).channels = PerChannel.set s.channels ch u := rfl
@[simp] theorem State.handed_setCcu (ch : Channel) (u : ChannelUnit) : (s.setCcu ch u).handed = s.handed := rfl
@[simp] theorem State.answers_setCcu (ch : Channel) (u : ChannelUnit) : (s.setCcu ch u).answers = s.answers := rfl
@[simp] theorem State.deferred_setCcu (ch : Channel) (u : ChannelUnit) : (s.setCcu ch u).deferred = s.deferred := rfl
@[simp] theorem State.views_setCcu (ch : Channel) (u : ChannelUnit) : (s.setCcu ch u).views = s.views := rfl
@[simp] theorem State.lineClaim_setCcu (ch : Channel) (u : ChannelUnit) : (s.setCcu ch u).lineClaim = s.lineClaim := rfl
@[simp] theorem State.tablesClaim_setCcu (ch : Channel) (u : ChannelUnit) : (s.setCcu ch u).tablesClaim = s.tablesClaim := rfl
@[simp] theorem State.alarms_setCcu (ch : Channel) (u : ChannelUnit) : (s.setCcu ch u).alarms = s.alarms := rfl
@[simp] theorem State.lineSetup_setCcu (ch : Channel) (u : ChannelUnit) : (s.setCcu ch u).lineSetup = s.lineSetup := rfl
@[simp] theorem State.housings_setCcu (ch : Channel) (u : ChannelUnit) : (s.setCcu ch u).housings = s.housings := rfl
@[simp] theorem State.templates_setCcu (ch : Channel) (u : ChannelUnit) : (s.setCcu ch u).templates = s.templates := rfl
@[simp] theorem State.watchPoints_setCcu (ch : Channel) (u : ChannelUnit) : (s.setCcu ch u).watchPoints = s.watchPoints := rfl
@[simp] theorem State.policies_setCcu (ch : Channel) (u : ChannelUnit) : (s.setCcu ch u).policies = s.policies := rfl
@[simp] theorem State.workQueue_setCcu (ch : Channel) (u : ChannelUnit) : (s.setCcu ch u).workQueue = s.workQueue := rfl
@[simp] theorem State.isolationQueue_setCcu (ch : Channel) (u : ChannelUnit) : (s.setCcu ch u).isolationQueue = s.isolationQueue := rfl
@[simp] theorem State.current_setCcu (ch : Channel) (u : ChannelUnit) : (s.setCcu ch u).current = s.current := rfl
@[simp] theorem State.position_setCcu (ch : Channel) (u : ChannelUnit) : (s.setCcu ch u).position = s.position := rfl
@[simp] theorem State.tagCounter_setCcu (ch : Channel) (u : ChannelUnit) : (s.setCcu ch u).tagCounter = s.tagCounter := rfl
@[simp] theorem State.generator_setCcu (ch : Channel) (u : ChannelUnit) : (s.setCcu ch u).generator = s.generator := rfl
@[simp] theorem State.chipTimer_setCcu (ch : Channel) (u : ChannelUnit) : (s.setCcu ch u).chipTimer = s.chipTimer := rfl
@[simp] theorem State.requested_setCcu (ch : Channel) (u : ChannelUnit) : (s.setCcu ch u).requested = s.requested := rfl
@[simp] theorem State.settleTimer_setCcu (ch : Channel) (u : ChannelUnit) : (s.setCcu ch u).settleTimer = s.settleTimer := rfl
@[simp] theorem State.clipCount_setCcu (ch : Channel) (u : ChannelUnit) : (s.setCcu ch u).clipCount = s.clipCount := rfl
@[simp] theorem State.cells_setCcu (ch : Channel) (u : ChannelUnit) : (s.setCcu ch u).cells = s.cells := rfl
@[simp] theorem State.allocation_setCcu (ch : Channel) (u : ChannelUnit) : (s.setCcu ch u).allocation = s.allocation := rfl
@[simp] theorem State.chipHistory_setCcu (ch : Channel) (u : ChannelUnit) : (s.setCcu ch u).chipHistory = s.chipHistory := rfl
@[simp] theorem State.intervals_setCcu (ch : Channel) (u : ChannelUnit) : (s.setCcu ch u).intervals = s.intervals := rfl
@[simp] theorem State.evaluation_setCcu (ch : Channel) (u : ChannelUnit) : (s.setCcu ch u).evaluation = s.evaluation := rfl
@[simp] theorem State.verdicts_setCcu (ch : Channel) (u : ChannelUnit) : (s.setCcu ch u).verdicts = s.verdicts := rfl
@[simp] theorem State.cmu_setCcu (ch : Channel) (u : ChannelUnit) : (s.setCcu ch u).cmu = s.cmu := rfl
@[simp] theorem State.queues_setCcu (ch : Channel) (u : ChannelUnit) : (s.setCcu ch u).queues = s.queues := rfl
@[simp] theorem State.homes_setCcu (ch : Channel) (u : ChannelUnit) : (s.setCcu ch u).homes = s.homes := rfl
@[simp] theorem State.pending_setCcu (ch : Channel) (u : ChannelUnit) : (s.setCcu ch u).pending = s.pending := rfl

/-! ### markStale -/

@[simp] theorem State.resetAsserted_markStale (ch : Channel) : (s.markStale ch).resetAsserted = s.resetAsserted := rfl
@[simp] theorem State.presenceLine_markStale (ch : Channel) : (s.markStale ch).presenceLine = s.presenceLine := rfl
@[simp] theorem State.losInput_markStale (ch : Channel) : (s.markStale ch).losInput = s.losInput := rfl
@[simp] theorem State.confirmInput_markStale (ch : Channel) : (s.markStale ch).confirmInput = s.confirmInput := rfl
@[simp] theorem State.straps_markStale (ch : Channel) : (s.markStale ch).straps = s.straps := rfl
@[simp] theorem State.epoch_markStale (ch : Channel) : (s.markStale ch).epoch = s.epoch := rfl
@[simp] theorem State.channels_markStale (ch : Channel) : (s.markStale ch).channels = s.channels := rfl
@[simp] theorem State.views_markStale (ch : Channel) : (s.markStale ch).views = s.views := rfl
@[simp] theorem State.lineClaim_markStale (ch : Channel) : (s.markStale ch).lineClaim = s.lineClaim := rfl
@[simp] theorem State.tablesClaim_markStale (ch : Channel) : (s.markStale ch).tablesClaim = s.tablesClaim := rfl
@[simp] theorem State.alarms_markStale (ch : Channel) : (s.markStale ch).alarms = s.alarms := rfl
@[simp] theorem State.lineSetup_markStale (ch : Channel) : (s.markStale ch).lineSetup = s.lineSetup := rfl
@[simp] theorem State.housings_markStale (ch : Channel) : (s.markStale ch).housings = s.housings := rfl
@[simp] theorem State.templates_markStale (ch : Channel) : (s.markStale ch).templates = s.templates := rfl
@[simp] theorem State.watchPoints_markStale (ch : Channel) : (s.markStale ch).watchPoints = s.watchPoints := rfl
@[simp] theorem State.policies_markStale (ch : Channel) : (s.markStale ch).policies = s.policies := rfl
@[simp] theorem State.workQueue_markStale (ch : Channel) : (s.markStale ch).workQueue = s.workQueue := rfl
@[simp] theorem State.isolationQueue_markStale (ch : Channel) : (s.markStale ch).isolationQueue = s.isolationQueue := rfl
@[simp] theorem State.current_markStale (ch : Channel) : (s.markStale ch).current = s.current := rfl
@[simp] theorem State.position_markStale (ch : Channel) : (s.markStale ch).position = s.position := rfl
@[simp] theorem State.tagCounter_markStale (ch : Channel) : (s.markStale ch).tagCounter = s.tagCounter := rfl
@[simp] theorem State.generator_markStale (ch : Channel) : (s.markStale ch).generator = s.generator := rfl
@[simp] theorem State.chipTimer_markStale (ch : Channel) : (s.markStale ch).chipTimer = s.chipTimer := rfl
@[simp] theorem State.requested_markStale (ch : Channel) : (s.markStale ch).requested = s.requested := rfl
@[simp] theorem State.settleTimer_markStale (ch : Channel) : (s.markStale ch).settleTimer = s.settleTimer := rfl
@[simp] theorem State.clipCount_markStale (ch : Channel) : (s.markStale ch).clipCount = s.clipCount := rfl
@[simp] theorem State.cells_markStale (ch : Channel) : (s.markStale ch).cells = s.cells := rfl
@[simp] theorem State.allocation_markStale (ch : Channel) : (s.markStale ch).allocation = s.allocation := rfl
@[simp] theorem State.chipHistory_markStale (ch : Channel) : (s.markStale ch).chipHistory = s.chipHistory := rfl
@[simp] theorem State.intervals_markStale (ch : Channel) : (s.markStale ch).intervals = s.intervals := rfl
@[simp] theorem State.evaluation_markStale (ch : Channel) : (s.markStale ch).evaluation = s.evaluation := rfl
@[simp] theorem State.verdicts_markStale (ch : Channel) : (s.markStale ch).verdicts = s.verdicts := rfl
@[simp] theorem State.cmu_markStale (ch : Channel) : (s.markStale ch).cmu = s.cmu := rfl
@[simp] theorem State.queues_markStale (ch : Channel) : (s.markStale ch).queues = s.queues := rfl
@[simp] theorem State.homes_markStale (ch : Channel) : (s.markStale ch).homes = s.homes := rfl
@[simp] theorem State.pending_markStale (ch : Channel) : (s.markStale ch).pending = s.pending := rfl

/-! ### markLost -/

@[simp] theorem State.resetAsserted_markLost (ch : Channel) : (s.markLost ch).resetAsserted = s.resetAsserted := rfl
@[simp] theorem State.presenceLine_markLost (ch : Channel) : (s.markLost ch).presenceLine = s.presenceLine := rfl
@[simp] theorem State.losInput_markLost (ch : Channel) : (s.markLost ch).losInput = s.losInput := rfl
@[simp] theorem State.confirmInput_markLost (ch : Channel) : (s.markLost ch).confirmInput = s.confirmInput := rfl
@[simp] theorem State.straps_markLost (ch : Channel) : (s.markLost ch).straps = s.straps := rfl
@[simp] theorem State.epoch_markLost (ch : Channel) : (s.markLost ch).epoch = s.epoch := rfl
@[simp] theorem State.channels_markLost (ch : Channel) : (s.markLost ch).channels = s.channels := rfl
@[simp] theorem State.views_markLost (ch : Channel) : (s.markLost ch).views = s.views := rfl
@[simp] theorem State.lineClaim_markLost (ch : Channel) : (s.markLost ch).lineClaim = s.lineClaim := rfl
@[simp] theorem State.tablesClaim_markLost (ch : Channel) : (s.markLost ch).tablesClaim = s.tablesClaim := rfl
@[simp] theorem State.alarms_markLost (ch : Channel) : (s.markLost ch).alarms = s.alarms := rfl
@[simp] theorem State.lineSetup_markLost (ch : Channel) : (s.markLost ch).lineSetup = s.lineSetup := rfl
@[simp] theorem State.housings_markLost (ch : Channel) : (s.markLost ch).housings = s.housings := rfl
@[simp] theorem State.templates_markLost (ch : Channel) : (s.markLost ch).templates = s.templates := rfl
@[simp] theorem State.watchPoints_markLost (ch : Channel) : (s.markLost ch).watchPoints = s.watchPoints := rfl
@[simp] theorem State.policies_markLost (ch : Channel) : (s.markLost ch).policies = s.policies := rfl
@[simp] theorem State.workQueue_markLost (ch : Channel) : (s.markLost ch).workQueue = s.workQueue := rfl
@[simp] theorem State.isolationQueue_markLost (ch : Channel) : (s.markLost ch).isolationQueue = s.isolationQueue := rfl
@[simp] theorem State.current_markLost (ch : Channel) : (s.markLost ch).current = s.current := rfl
@[simp] theorem State.position_markLost (ch : Channel) : (s.markLost ch).position = s.position := rfl
@[simp] theorem State.tagCounter_markLost (ch : Channel) : (s.markLost ch).tagCounter = s.tagCounter := rfl
@[simp] theorem State.generator_markLost (ch : Channel) : (s.markLost ch).generator = s.generator := rfl
@[simp] theorem State.chipTimer_markLost (ch : Channel) : (s.markLost ch).chipTimer = s.chipTimer := rfl
@[simp] theorem State.requested_markLost (ch : Channel) : (s.markLost ch).requested = s.requested := rfl
@[simp] theorem State.settleTimer_markLost (ch : Channel) : (s.markLost ch).settleTimer = s.settleTimer := rfl
@[simp] theorem State.clipCount_markLost (ch : Channel) : (s.markLost ch).clipCount = s.clipCount := rfl
@[simp] theorem State.cells_markLost (ch : Channel) : (s.markLost ch).cells = s.cells := rfl
@[simp] theorem State.allocation_markLost (ch : Channel) : (s.markLost ch).allocation = s.allocation := rfl
@[simp] theorem State.chipHistory_markLost (ch : Channel) : (s.markLost ch).chipHistory = s.chipHistory := rfl
@[simp] theorem State.intervals_markLost (ch : Channel) : (s.markLost ch).intervals = s.intervals := rfl
@[simp] theorem State.evaluation_markLost (ch : Channel) : (s.markLost ch).evaluation = s.evaluation := rfl
@[simp] theorem State.verdicts_markLost (ch : Channel) : (s.markLost ch).verdicts = s.verdicts := rfl
@[simp] theorem State.cmu_markLost (ch : Channel) : (s.markLost ch).cmu = s.cmu := rfl
@[simp] theorem State.queues_markLost (ch : Channel) : (s.markLost ch).queues = s.queues := rfl
@[simp] theorem State.homes_markLost (ch : Channel) : (s.markLost ch).homes = s.homes := rfl
@[simp] theorem State.pending_markLost (ch : Channel) : (s.markLost ch).pending = s.pending := rfl
@[simp] theorem State.answers_markLost (ch : Channel) : (s.markLost ch).answers = s.answers := rfl
@[simp] theorem State.deferred_markLost (ch : Channel) : (s.markLost ch).deferred = s.deferred := rfl

/-! ### loadProbe -/

@[simp] theorem State.resetAsserted_loadProbe : s.loadProbe.resetAsserted = s.resetAsserted := rfl
@[simp] theorem State.presenceLine_loadProbe : s.loadProbe.presenceLine = s.presenceLine := rfl
@[simp] theorem State.losInput_loadProbe : s.loadProbe.losInput = s.losInput := rfl
@[simp] theorem State.confirmInput_loadProbe : s.loadProbe.confirmInput = s.confirmInput := rfl
@[simp] theorem State.straps_loadProbe : s.loadProbe.straps = s.straps := rfl
@[simp] theorem State.epoch_loadProbe : s.loadProbe.epoch = s.epoch := rfl
@[simp] theorem State.channels_loadProbe : s.loadProbe.channels = s.channels := rfl
@[simp] theorem State.handed_loadProbe : s.loadProbe.handed = s.handed := rfl
@[simp] theorem State.answers_loadProbe : s.loadProbe.answers = s.answers := rfl
@[simp] theorem State.deferred_loadProbe : s.loadProbe.deferred = s.deferred := rfl
@[simp] theorem State.views_loadProbe : s.loadProbe.views = s.views := rfl
@[simp] theorem State.lineClaim_loadProbe : s.loadProbe.lineClaim = s.lineClaim := rfl
@[simp] theorem State.tablesClaim_loadProbe : s.loadProbe.tablesClaim = s.tablesClaim := rfl
@[simp] theorem State.alarms_loadProbe : s.loadProbe.alarms = s.alarms := rfl
@[simp] theorem State.lineSetup_loadProbe : s.loadProbe.lineSetup = s.lineSetup := rfl
@[simp] theorem State.housings_loadProbe : s.loadProbe.housings = s.housings := rfl
@[simp] theorem State.templates_loadProbe : s.loadProbe.templates = s.templates := rfl
@[simp] theorem State.watchPoints_loadProbe : s.loadProbe.watchPoints = s.watchPoints := rfl
@[simp] theorem State.policies_loadProbe : s.loadProbe.policies = s.policies := rfl
@[simp] theorem State.workQueue_loadProbe : s.loadProbe.workQueue = s.workQueue := rfl
@[simp] theorem State.isolationQueue_loadProbe : s.loadProbe.isolationQueue = s.isolationQueue := rfl
@[simp] theorem State.current_loadProbe : s.loadProbe.current = s.current := rfl
@[simp] theorem State.position_loadProbe : s.loadProbe.position = s.position := rfl
@[simp] theorem State.tagCounter_loadProbe : s.loadProbe.tagCounter = s.tagCounter := rfl
@[simp] theorem State.chipTimer_loadProbe : s.loadProbe.chipTimer = some ⟨0, 0⟩ := rfl
@[simp] theorem State.requested_loadProbe : s.loadProbe.requested = s.requested := rfl
@[simp] theorem State.settleTimer_loadProbe : s.loadProbe.settleTimer = s.settleTimer := rfl
@[simp] theorem State.clipCount_loadProbe : s.loadProbe.clipCount = s.clipCount := rfl
@[simp] theorem State.cells_loadProbe : s.loadProbe.cells = s.cells := rfl
@[simp] theorem State.allocation_loadProbe : s.loadProbe.allocation = s.allocation := rfl
@[simp] theorem State.chipHistory_loadProbe : s.loadProbe.chipHistory = s.chipHistory := rfl
@[simp] theorem State.intervals_loadProbe : s.loadProbe.intervals = s.intervals := rfl
@[simp] theorem State.evaluation_loadProbe : s.loadProbe.evaluation = s.evaluation := rfl
@[simp] theorem State.verdicts_loadProbe : s.loadProbe.verdicts = s.verdicts := rfl
@[simp] theorem State.cmu_loadProbe : s.loadProbe.cmu = s.cmu := rfl
@[simp] theorem State.queues_loadProbe : s.loadProbe.queues = s.queues := rfl
@[simp] theorem State.homes_loadProbe : s.loadProbe.homes = s.homes := rfl
@[simp] theorem State.pending_loadProbe : s.loadProbe.pending = s.pending := rfl

/-! ### allocate -/

@[simp] theorem State.resetAsserted_allocate (g : List Segment) : (s.allocate g).resetAsserted = s.resetAsserted := rfl
@[simp] theorem State.presenceLine_allocate (g : List Segment) : (s.allocate g).presenceLine = s.presenceLine := rfl
@[simp] theorem State.losInput_allocate (g : List Segment) : (s.allocate g).losInput = s.losInput := rfl
@[simp] theorem State.confirmInput_allocate (g : List Segment) : (s.allocate g).confirmInput = s.confirmInput := rfl
@[simp] theorem State.straps_allocate (g : List Segment) : (s.allocate g).straps = s.straps := rfl
@[simp] theorem State.epoch_allocate (g : List Segment) : (s.allocate g).epoch = s.epoch := rfl
@[simp] theorem State.channels_allocate (g : List Segment) : (s.allocate g).channels = s.channels := rfl
@[simp] theorem State.handed_allocate (g : List Segment) : (s.allocate g).handed = s.handed := rfl
@[simp] theorem State.answers_allocate (g : List Segment) : (s.allocate g).answers = s.answers := rfl
@[simp] theorem State.deferred_allocate (g : List Segment) : (s.allocate g).deferred = s.deferred := rfl
@[simp] theorem State.views_allocate (g : List Segment) : (s.allocate g).views = s.views := rfl
@[simp] theorem State.lineClaim_allocate (g : List Segment) : (s.allocate g).lineClaim = s.lineClaim := rfl
@[simp] theorem State.tablesClaim_allocate (g : List Segment) : (s.allocate g).tablesClaim = s.tablesClaim := rfl
@[simp] theorem State.alarms_allocate (g : List Segment) : (s.allocate g).alarms = s.alarms := rfl
@[simp] theorem State.lineSetup_allocate (g : List Segment) : (s.allocate g).lineSetup = s.lineSetup := rfl
@[simp] theorem State.housings_allocate (g : List Segment) : (s.allocate g).housings = s.housings := rfl
@[simp] theorem State.templates_allocate (g : List Segment) : (s.allocate g).templates = s.templates := rfl
@[simp] theorem State.watchPoints_allocate (g : List Segment) : (s.allocate g).watchPoints = s.watchPoints := rfl
@[simp] theorem State.policies_allocate (g : List Segment) : (s.allocate g).policies = s.policies := rfl
@[simp] theorem State.workQueue_allocate (g : List Segment) : (s.allocate g).workQueue = s.workQueue := rfl
@[simp] theorem State.isolationQueue_allocate (g : List Segment) : (s.allocate g).isolationQueue = s.isolationQueue := rfl
@[simp] theorem State.current_allocate (g : List Segment) : (s.allocate g).current = s.current := rfl
@[simp] theorem State.position_allocate (g : List Segment) : (s.allocate g).position = s.position := rfl
@[simp] theorem State.tagCounter_allocate (g : List Segment) : (s.allocate g).tagCounter = s.tagCounter := rfl
@[simp] theorem State.generator_allocate (g : List Segment) : (s.allocate g).generator = s.generator := rfl
@[simp] theorem State.chipTimer_allocate (g : List Segment) : (s.allocate g).chipTimer = s.chipTimer := rfl
@[simp] theorem State.requested_allocate (g : List Segment) : (s.allocate g).requested = s.requested := rfl
@[simp] theorem State.settleTimer_allocate (g : List Segment) : (s.allocate g).settleTimer = s.settleTimer := rfl
@[simp] theorem State.clipCount_allocate (g : List Segment) : (s.allocate g).clipCount = s.clipCount := rfl
@[simp] theorem State.allocation_allocate (g : List Segment) : (s.allocate g).allocation = g := rfl
@[simp] theorem State.chipHistory_allocate (g : List Segment) : (s.allocate g).chipHistory = s.chipHistory := rfl
@[simp] theorem State.intervals_allocate (g : List Segment) : (s.allocate g).intervals = s.intervals := rfl
@[simp] theorem State.evaluation_allocate (g : List Segment) : (s.allocate g).evaluation = s.evaluation := rfl
@[simp] theorem State.verdicts_allocate (g : List Segment) : (s.allocate g).verdicts = s.verdicts := rfl
@[simp] theorem State.cmu_allocate (g : List Segment) : (s.allocate g).cmu = s.cmu := rfl
@[simp] theorem State.queues_allocate (g : List Segment) : (s.allocate g).queues = s.queues := rfl
@[simp] theorem State.homes_allocate (g : List Segment) : (s.allocate g).homes = s.homes := rfl
@[simp] theorem State.pending_allocate (g : List Segment) : (s.allocate g).pending = s.pending := rfl

/-! ### idle -/

@[simp] theorem State.resetAsserted_idle : s.idle.resetAsserted = s.resetAsserted := rfl
@[simp] theorem State.presenceLine_idle : s.idle.presenceLine = s.presenceLine := rfl
@[simp] theorem State.losInput_idle : s.idle.losInput = s.losInput := rfl
@[simp] theorem State.confirmInput_idle : s.idle.confirmInput = s.confirmInput := rfl
@[simp] theorem State.straps_idle : s.idle.straps = s.straps := rfl
@[simp] theorem State.epoch_idle : s.idle.epoch = s.epoch := rfl
@[simp] theorem State.channels_idle : s.idle.channels = s.channels := rfl
@[simp] theorem State.handed_idle : s.idle.handed = s.handed := rfl
@[simp] theorem State.answers_idle : s.idle.answers = s.answers := rfl
@[simp] theorem State.deferred_idle : s.idle.deferred = s.deferred := rfl
@[simp] theorem State.views_idle : s.idle.views = s.views := rfl
@[simp] theorem State.lineClaim_idle : s.idle.lineClaim = s.lineClaim := rfl
@[simp] theorem State.tablesClaim_idle : s.idle.tablesClaim = s.tablesClaim := rfl
@[simp] theorem State.alarms_idle : s.idle.alarms = s.alarms := rfl
@[simp] theorem State.lineSetup_idle : s.idle.lineSetup = s.lineSetup := rfl
@[simp] theorem State.housings_idle : s.idle.housings = s.housings := rfl
@[simp] theorem State.templates_idle : s.idle.templates = s.templates := rfl
@[simp] theorem State.watchPoints_idle : s.idle.watchPoints = s.watchPoints := rfl
@[simp] theorem State.policies_idle : s.idle.policies = s.policies := rfl
@[simp] theorem State.workQueue_idle : s.idle.workQueue = s.workQueue := rfl
@[simp] theorem State.isolationQueue_idle : s.idle.isolationQueue = s.isolationQueue := rfl
@[simp] theorem State.current_idle : s.idle.current = none := rfl
@[simp] theorem State.position_idle : s.idle.position = s.position := rfl
@[simp] theorem State.tagCounter_idle : s.idle.tagCounter = s.tagCounter := rfl
@[simp] theorem State.generator_idle : s.idle.generator = s.generator := rfl
@[simp] theorem State.chipTimer_idle : s.idle.chipTimer = none := rfl
@[simp] theorem State.requested_idle : s.idle.requested = s.requested := rfl
@[simp] theorem State.settleTimer_idle : s.idle.settleTimer = none := rfl
@[simp] theorem State.clipCount_idle : s.idle.clipCount = s.clipCount := rfl
@[simp] theorem State.cells_idle : s.idle.cells = s.cells := rfl
@[simp] theorem State.allocation_idle : s.idle.allocation = [] := rfl
@[simp] theorem State.chipHistory_idle : s.idle.chipHistory = s.chipHistory := rfl
@[simp] theorem State.intervals_idle : s.idle.intervals = [] := rfl
@[simp] theorem State.evaluation_idle : s.idle.evaluation = none := rfl
@[simp] theorem State.verdicts_idle : s.idle.verdicts = s.verdicts := rfl
@[simp] theorem State.cmu_idle : s.idle.cmu = .reset := rfl
@[simp] theorem State.queues_idle : s.idle.queues = s.queues := rfl
@[simp] theorem State.homes_idle : s.idle.homes = s.homes := rfl
@[simp] theorem State.pending_idle : s.idle.pending = s.pending := rfl

end Sys2Proof.Machine
end

