-- ==== Sys2Proof/Laws/Ops.lean ====
section
/-! SUPPORT. What the shared operations of Ops.lean and TableStore.lean can do, once each. -/

namespace Sys2Proof.Machine

/-! ### Families -/

@[simp] theorem PerChannel.get_set_same {α : Type} (x : PerChannel α) (c : Channel) (v : α) :
    PerChannel.get (PerChannel.set x c v) c = v := by cases c <;> rfl

theorem PerChannel.get_set_other {α : Type} (x : PerChannel α) {c d : Channel} (v : α) (h : d ≠ c) :
    PerChannel.get (PerChannel.set x c v) d = PerChannel.get x d := by
  cases c <;> cases d <;> first | rfl | exact absurd rfl h

@[simp] theorem PerChannel.set_set {α : Type} (x : PerChannel α) (c : Channel) (v w : α) :
    PerChannel.set (PerChannel.set x c v) c w = PerChannel.set x c w := by cases c <;> rfl

@[simp] theorem PerChannel.set_get {α : Type} (x : PerChannel α) (c : Channel) :
    PerChannel.set x c (PerChannel.get x c) = x := by cases c <;> rfl

@[simp] theorem PerQueue.get_set_same {α : Type} (x : PerQueue α) (q : RQ) (v : α) :
    PerQueue.get (PerQueue.set x q v) q = v := by cases q <;> rfl

theorem PerQueue.get_set_other {α : Type} (x : PerQueue α) {q r : RQ} (v : α) (h : r ≠ q) :
    PerQueue.get (PerQueue.set x q v) r = PerQueue.get x r := by
  cases q <;> cases r <;> first | rfl | exact absurd rfl h

/-! ### The frame every command shares -/

theorem live_next {s : State} (h : s.resetAsserted = false) (f : State → State) : live s f = .next (f s) := by
  simp [live, h]

theorem live_held {s : State} (h : s.resetAsserted = true) (f : State → State) : live s f = .next s := by
  simp [live, h]

theorem serve_found {s : State} {ch : Channel} {r : Request} {h : Handed} (h0 : s.resetAsserted = false)
    (h1 : s.handed.find? (Handed.is ch r) = some h) (f : Handed → State → State) :
    serve s ch r f = .next (f h (s.taken ch r)) := by
  simp [serve, live, h0, h1]

theorem serve_none {s : State} {ch : Channel} {r : Request} (h1 : s.handed.find? (Handed.is ch r) = none)
    (f : Handed → State → State) : serve s ch r f = .next s := by
  simp [serve, live, h1]

theorem found_channel {s : State} {ch : Channel} {r : Request} {h : Handed}
    (h1 : s.handed.find? (Handed.is ch r) = some h) : h.channel = ch := by
  have := List.find?_some h1
  simp only [Handed.is, Bool.and_eq_true, decide_eq_true_eq] at this
  exact this.1

theorem found_request {s : State} {ch : Channel} {r : Request} {h : Handed}
    (h1 : s.handed.find? (Handed.is ch r) = some h) : h.request = r := by
  have := List.find?_some h1
  simp only [Handed.is, Bool.and_eq_true, decide_eq_true_eq] at this
  exact this.2

/-! ### Checks -/

theorem firstFailure_cons (b : Bool) (st : Status) (l : List (Bool × Status)) :
    firstFailure ((b, st) :: l) = if b then some st else firstFailure l := rfl

theorem decided_refused {s : State} {h : Handed} {l : List (Bool × Status)} {st : Status} {t : State}
    (hf : firstFailure l = some st) : s.decided h l t = s.answer h (.refusal st) := by
  simp [State.decided, hf]

theorem decided_passed {s : State} {h : Handed} {l : List (Bool × Status)} {t : State}
    (hf : firstFailure l = none) : s.decided h l t = t := by
  simp [State.decided, hf]

/-! ### Tables -/

theorem wpKey_inj {p p' : Pair} {h h' : Nat} (hh : h ≤ 192) (hh' : h' ≤ 192) (e : wpKey p h = wpKey p' h') :
    p = p' ∧ h = h' := by
  simp only [wpKey] at e
  constructor
  · ext; omega
  · omega

@[simp] theorem wp_setWp_same (s : State) (p : Pair) (h : Nat) (w : WatchPoint) : (s.setWp p h w).wp p h = w := by
  simp [State.wp]

theorem wp_setWp_other (s : State) {p p' : Pair} {h h' : Nat} (w : WatchPoint) (hh : h ≤ 192) (hh' : h' ≤ 192)
    (hne : (p', h') ≠ (p, h)) : (s.setWp p h w).wp p' h' = s.wp p' h' := by
  simp only [State.wp, State.watchPoints_setWp]
  refine Memory.read_write_other _ _ _ fun e => hne ?_
  obtain ⟨h1, h2⟩ := wpKey_inj hh' hh e
  rw [h1, h2]

@[simp] theorem housing_setHousing_same (s : State) (h : Nat) (e : HousingEntry) : (s.setHousing h e).housing h = e := by
  simp [State.housing]

theorem housing_setHousing_other (s : State) {h h' : Nat} (e : HousingEntry) (hne : h' ≠ h) :
    (s.setHousing h e).housing h' = s.housing h' := by
  simp only [State.housing, State.housings_setHousing]
  exact Memory.read_write_other _ _ _ hne

@[simp] theorem policy_setPolicy_same (s : State) (p : Pair) (v : Policy) : (s.setPolicy p v).policy p = v := by
  simp [State.policy]

theorem policy_setPolicy_other (s : State) {p p' : Pair} (v : Policy) (hne : p' ≠ p) :
    (s.setPolicy p v).policy p' = s.policy p' := by
  simp only [State.policy, State.policies_setPolicy]
  exact Memory.read_write_other _ _ _ fun e => hne (Fin.ext e)

@[simp] theorem verdict_setVerdict_same (s : State) (p : Pair) (v : VerdictRegister) :
    (s.setVerdict p v).verdict p = v := by
  simp [State.verdict]

theorem verdict_setVerdict_other (s : State) {p p' : Pair} (v : VerdictRegister) (hne : p' ≠ p) :
    (s.setVerdict p v).verdict p' = s.verdict p' := by
  simp only [State.verdict, State.verdicts_setVerdict]
  exact Memory.read_write_other _ _ _ fun e => hne (Fin.ext e)

/-! ### Lists of watch points rewritten -/

theorem wp_updateWps (s : State) (p p' : Pair) (hs : List Nat) (f : Nat → WatchPoint → WatchPoint) (h' : Nat)
    (hn : hs.Nodup) (hb : ∀ h ∈ hs, h ≤ 192) (hh' : h' ≤ 192) :
    (s.updateWps p hs f).wp p' h' = if p' = p ∧ h' ∈ hs then f h' (s.wp p' h') else s.wp p' h' := by
  have hinj : (hs.map (wpKey p)).Nodup := by
    refine (List.nodup_map_iff_inj_on hn).mpr fun a ha b hb' e => ?_
    exact (wpKey_inj (hb a ha) (hb b hb') e).2
  simp only [State.wp, State.updateWps]
  rw [Memory.read_update _ _ _ hinj]
  by_cases hc : p' = p ∧ h' ∈ hs
  · obtain ⟨rfl, hm⟩ := hc
    rw [if_pos (List.mem_map.mpr ⟨h', hm, rfl⟩), if_pos ⟨rfl, hm⟩]
    simp [wpKey]
  · rw [if_neg, if_neg hc]
    intro hm
    obtain ⟨a, ha, e⟩ := List.mem_map.mp hm
    obtain ⟨h1, h2⟩ := wpKey_inj (hb a ha) hh' e
    exact hc ⟨h1.symm, h2 ▸ ha⟩

theorem updateWps_frame (s : State) (p : Pair) (hs : List Nat) (f : Nat → WatchPoint → WatchPoint) :
    s.updateWps p hs f = { s with watchPoints := (s.updateWps p hs f).watchPoints } := rfl

theorem updatePairs_frame (s : State) (hs : List Nat) (f : Nat → WatchPoint → WatchPoint) (ps : List Pair) :
    s.updatePairs hs f ps = { s with watchPoints := (s.updatePairs hs f ps).watchPoints } := by
  induction ps generalizing s with
  | nil => rfl
  | cons p ps ih => rw [State.updatePairs, ih]; rfl

theorem wp_updatePairs (s : State) (hs : List Nat) (f : Nat → WatchPoint → WatchPoint) (ps : List Pair)
    (hp : ps.Nodup) (hn : hs.Nodup) (hb : ∀ h ∈ hs, h ≤ 192) (p' : Pair) (h' : Nat) (hh' : h' ≤ 192) :
    (s.updatePairs hs f ps).wp p' h' = if p' ∈ ps ∧ h' ∈ hs then f h' (s.wp p' h') else s.wp p' h' := by
  induction ps generalizing s with
  | nil => simp [State.updatePairs]
  | cons p ps ih =>
    have hp' := List.nodup_cons.mp hp
    rw [State.updatePairs, ih _ hp'.2, wp_updateWps _ _ _ _ _ _ hn hb hh']
    by_cases h1 : p' = p
    · subst h1; simp [hp'.1]
    · simp [h1]

theorem storeLineSetup_frame (s : State) (x : LineSetup) :
    s.storeLineSetup x = { s with lineSetup := x, watchPoints := (s.storeLineSetup x).watchPoints } := by
  unfold State.storeLineSetup; exact updatePairs_frame { s with lineSetup := x } _ _ _

theorem storeHousing_frame (s : State) (n : Nat) (e : HousingEntry) :
    s.storeHousing n e =
      { s with housings := Memory.write housingDefault s.housings n e
               watchPoints := (s.storeHousing n e).watchPoints } := by
  unfold State.storeHousing; exact updatePairs_frame (s.setHousing n e) _ _ _

theorem storeTemplate_frame (s : State) (t w l : Nat) :
    s.storeTemplate t w l =
      { s with templates := Memory.write templateDefault s.templates t ⟨w, min l (w / 4)⟩
               watchPoints := (s.storeTemplate t w l).watchPoints } := by
  unfold State.storeTemplate; exact updatePairs_frame _ _ _ _

theorem allPairs_nodup : allPairs.Nodup := by decide

theorem mem_allPairs (p : Pair) : p ∈ allPairs := by revert p; decide

theorem mem_allHousings {h : Nat} : h ∈ allHousings ↔ h ≤ 192 := by
  simp only [allHousings, Config.housingCount, List.mem_range]; omega

theorem allHousings_nodup : allHousings.Nodup := List.nodup_range

theorem mem_repeaters {h : Nat} : h ∈ repeaters ↔ 1 ≤ h ∧ h ≤ 192 := by
  simp only [repeaters, List.mem_map, List.mem_range]
  constructor
  · rintro ⟨a, ha, rfl⟩; omega
  · rintro ⟨h1, h2⟩; exact ⟨h - 1, by omega, by omega⟩

theorem repeaters_nodup : repeaters.Nodup := by
  refine (List.nodup_map_iff_inj_on List.nodup_range).mpr fun a _ b _ e => ?_
  omega

theorem mem_housingRange {first last h : Nat} : h ∈ housingRange first last ↔ first ≤ h ∧ h ≤ last := by
  simp only [housingRange, List.mem_map, List.mem_range]
  constructor
  · rintro ⟨a, ha, rfl⟩; omega
  · rintro ⟨h1, h2⟩; exact ⟨h - first, by omega, by omega⟩

theorem housingRange_nodup (first last : Nat) : (housingRange first last).Nodup := by
  refine (List.nodup_map_iff_inj_on List.nodup_range).mpr fun a _ b _ e => ?_
  omega

/-! ### Posting -/

theorem accept_room {q : ReportQueue} (r : Record) (h : q.records.length < 64) :
    q.accept r = { q with records := q.records ++ [r] } := by simp [ReportQueue.accept, Config.reportQueueSize, h]

theorem accept_full {q : ReportQueue} (r : Record) (h : ¬ q.records.length < 64) :
    q.accept r = { q with overflow := true } := by simp [ReportQueue.accept, Config.reportQueueSize, h]

theorem accept_bounded {q : ReportQueue} (r : Record) (h : q.records.length ≤ 64) :
    (q.accept r).records.length ≤ 64 := by
  by_cases hr : q.records.length < 64
  · rw [accept_room r hr]; simp; omega
  · rw [accept_full r hr]; exact h

theorem post_frame (s : State) (q : RQ) (b : RecordBody) : s.post q b = { s with queues := (s.post q b).queues } := rfl

theorem postWork_eq_post (s : State) (w : Work) (b : RecordBody) : ∃ q, s.postWork w b = s.post q b := by
  unfold State.postWork; split <;> exact ⟨_, rfl⟩

theorem postCancelled_eq_post (s : State) (w : Work) : ∃ q b, s.postCancelled w = s.post q b := by
  unfold State.postCancelled
  split <;> (obtain ⟨q, h⟩ := postWork_eq_post s w _; exact ⟨q, _, h⟩)

theorem postCancelledAll_frame (s : State) (l : List Work) :
    s.postCancelledAll l = { s with queues := (s.postCancelledAll l).queues } := by
  induction l generalizing s with
  | nil => rfl
  | cons w l ih =>
    obtain ⟨q, b, e⟩ := postCancelled_eq_post s w
    rw [State.postCancelledAll, ih, e]; rfl

/-! ### Work tags -/

/-- The tag an enqueue receives is free as long as fewer than 256 are held (R43). -/
theorem freeTag_free (held : List (BitVec 8)) (n : Nat) (t : BitVec 8)
    (h : ∃ i < n, t + BitVec.ofNat 8 i ∉ held) : freeTag held n t ∉ held := by
  induction n generalizing t with
  | zero => obtain ⟨i, hi, _⟩ := h; omega
  | succ n ih =>
    unfold freeTag
    split
    · next hm =>
      obtain ⟨i, hi, hf⟩ := h
      cases i with
      | zero => exact absurd hm (by simpa using hf)
      | succ i =>
        refine ih _ ⟨i, by omega, ?_⟩
        have : t + 1 + BitVec.ofNat 8 i = t + BitVec.ofNat 8 (i + 1) := by
          rw [BitVec.add_assoc, Nat.add_comm i 1, BitVec.ofNat_add]; rfl
        rwa [this]
    · next hm => exact hm

/-- A tag found is reached from the counter over tags that are held (R43). -/
theorem freeTag_passes (held : List (BitVec 8)) (n : Nat) (t : BitVec 8) :
    ∃ k : Nat, freeTag held n t = t + BitVec.ofNat 8 k ∧ ∀ j < k, t + BitVec.ofNat 8 j ∈ held := by
  induction n generalizing t with
  | zero => exact ⟨0, by simp [freeTag], fun j hj => absurd hj (Nat.not_lt_zero j)⟩
  | succ n ih =>
    unfold freeTag
    split
    · next hm =>
      obtain ⟨k, hk, hj⟩ := ih (t + 1)
      have e (i : Nat) : t + 1 + BitVec.ofNat 8 i = t + BitVec.ofNat 8 (i + 1) := by
        rw [BitVec.add_assoc, Nat.add_comm i 1, BitVec.ofNat_add]; rfl
      refine ⟨k + 1, by rw [hk, e], fun j hjk => ?_⟩
      cases j with
      | zero => simpa using hm
      | succ j => rw [← e]; exact hj j (by omega)
    · exact ⟨0, by simp, fun j hj => absurd hj (Nat.not_lt_zero j)⟩

theorem exists_free (held : List (BitVec 8)) (h : held.length < 256) (t : BitVec 8) :
    ∃ i < 256, t + BitVec.ofNat 8 i ∉ held := by
  by_contra hc
  push Not at hc
  have hsub : (Finset.univ : Finset (BitVec 8)) ⊆ held.toFinset := by
    intro x _
    have := hc (x - t).toNat (x - t).isLt
    rw [BitVec.ofNat_toNat, BitVec.setWidth_eq, BitVec.add_comm, BitVec.sub_add_cancel] at this
    simpa using this
  have h1 := Finset.card_le_card hsub
  have h2 := List.toFinset_card_le held
  have h3 : (Finset.univ : Finset (BitVec 8)).card = 256 := by decide +kernel
  omega

theorem nextTag_free (s : State) (h : s.heldTags.length < 256) : s.nextTag ∉ s.heldTags :=
  freeTag_free _ _ _ (exists_free _ h _)

end Sys2Proof.Machine
end

