-- ==== Sys2Proof/Laws/Line.lean ====
section
/-! SUPPORT. What line work can do to the state, said once: `State.LineStep s t` holds between the state before and after
every operation of Line.lean. -/

namespace Sys2Proof.Machine

/-- Two watch points that differ in status only: template, centre lag and enable are the same. -/
def WatchPoint.sameSetup (a b : WatchPoint) : Prop :=
  b.template = a.template ∧ b.centre = a.centre ∧ b.enabled = a.enabled

/-- From `s` to `t` line work has left alone everything but the probe path, the Command Unit, watch point status, isolation
status, alarms and report queues; memories stay canonical and report queues bounded. -/
structure State.LineStep (s t : State) : Prop where
  resetAsserted : t.resetAsserted = s.resetAsserted
  presenceLine : t.presenceLine = s.presenceLine
  losInput : t.losInput = s.losInput
  straps : t.straps = s.straps
  epoch : t.epoch = s.epoch
  channels : t.channels = s.channels
  handed : t.handed = s.handed
  answers : t.answers = s.answers
  deferred : t.deferred = s.deferred
  views : t.views = s.views
  lineClaim : t.lineClaim = s.lineClaim
  tablesClaim : t.tablesClaim = s.tablesClaim
  lineSetup : t.lineSetup = s.lineSetup
  housings : t.housings = s.housings
  templates : t.templates = s.templates
  policies : t.policies = s.policies
  workQueue : t.workQueue = s.workQueue
  isolationQueue : t.isolationQueue = s.isolationQueue
  tagCounter : t.tagCounter = s.tagCounter
  chipHistory : t.chipHistory = s.chipHistory
  homes : t.homes = s.homes
  pending : t.pending = s.pending
  canonical : s.memoriesCanonical → t.memoriesCanonical
  bounded : s.reportsBounded → t.reportsBounded
  setup : ∀ k, (Memory.read wpDefault s.watchPoints k).sameSetup (Memory.read wpDefault t.watchPoints k)
  leads : ∀ p, (t.verdict p).candidate = (s.verdict p).candidate ∧ (t.verdict p).confirmed = (s.verdict p).confirmed

namespace State.LineStep

theorem refl (s : State) : s.LineStep s :=
  ⟨rfl, rfl, rfl, rfl, rfl, rfl, rfl, rfl, rfl, rfl, rfl, rfl, rfl, rfl, rfl, rfl, rfl, rfl, rfl, rfl, rfl, rfl, id, id,
    fun _ => ⟨rfl, rfl, rfl⟩, fun _ => ⟨rfl, rfl⟩⟩

theorem trans {s t u : State} (h : s.LineStep t) (k : t.LineStep u) : s.LineStep u where
  resetAsserted := k.resetAsserted.trans h.resetAsserted
  presenceLine := k.presenceLine.trans h.presenceLine
  losInput := k.losInput.trans h.losInput
  straps := k.straps.trans h.straps
  epoch := k.epoch.trans h.epoch
  channels := k.channels.trans h.channels
  handed := k.handed.trans h.handed
  answers := k.answers.trans h.answers
  deferred := k.deferred.trans h.deferred
  views := k.views.trans h.views
  lineClaim := k.lineClaim.trans h.lineClaim
  tablesClaim := k.tablesClaim.trans h.tablesClaim
  lineSetup := k.lineSetup.trans h.lineSetup
  housings := k.housings.trans h.housings
  templates := k.templates.trans h.templates
  policies := k.policies.trans h.policies
  workQueue := k.workQueue.trans h.workQueue
  isolationQueue := k.isolationQueue.trans h.isolationQueue
  tagCounter := k.tagCounter.trans h.tagCounter
  chipHistory := k.chipHistory.trans h.chipHistory
  homes := k.homes.trans h.homes
  pending := k.pending.trans h.pending
  canonical := k.canonical ∘ h.canonical
  bounded := k.bounded ∘ h.bounded
  setup i := ⟨(k.setup i).1.trans (h.setup i).1, (k.setup i).2.1.trans (h.setup i).2.1,
    (k.setup i).2.2.trans (h.setup i).2.2⟩
  leads p := ⟨(k.leads p).1.trans (h.leads p).1, (k.leads p).2.trans (h.leads p).2⟩

/-- `trans` with the later part first. -/
theorem after {s t u : State} (k : t.LineStep u) (h : s.LineStep t) : s.LineStep u := h.trans k

/-- An update of fields that line work owns, with all memories but the Cell Memory left alone. -/
theorem path {s t : State} (e : t = { s with
      alarms := t.alarms, current := t.current, position := t.position, generator := t.generator
      chipTimer := t.chipTimer, requested := t.requested, settleTimer := t.settleTimer, clipCount := t.clipCount
      cells := t.cells, allocation := t.allocation, intervals := t.intervals, evaluation := t.evaluation
      cmu := t.cmu, confirmInput := t.confirmInput })
    (hc : Memory.wf cellDefault s.cells = true → Memory.wf cellDefault t.cells = true) : s.LineStep t := by
  rw [e]
  exact ⟨rfl, rfl, rfl, rfl, rfl, rfl, rfl, rfl, rfl, rfl, rfl, rfl, rfl, rfl, rfl, rfl, rfl, rfl, rfl, rfl, rfl, rfl,
    fun h => ⟨h.1, h.2.1, h.2.2.1, h.2.2.2.1, hc h.2.2.2.2.1, h.2.2.2.2.2.1, h.2.2.2.2.2.2⟩, id,
    fun _ => ⟨rfl, rfl, rfl⟩, fun _ => ⟨rfl, rfl⟩⟩

variable {s : State}

theorem post (q : RQ) (b : RecordBody) : s.LineStep (s.post q b) where
  resetAsserted := rfl
  presenceLine := rfl
  losInput := rfl
  straps := rfl
  epoch := rfl
  channels := rfl
  handed := rfl
  answers := rfl
  deferred := rfl
  views := rfl
  lineClaim := rfl
  tablesClaim := rfl
  lineSetup := rfl
  housings := rfl
  templates := rfl
  policies := rfl
  workQueue := rfl
  isolationQueue := rfl
  tagCounter := rfl
  chipHistory := rfl
  homes := rfl
  pending := rfl
  canonical := id
  bounded h r := by
    by_cases e : r = q
    · subst e; simp only [State.queues_post, PerQueue.get_set_same]; exact accept_bounded _ (h r)
    · simp only [State.queues_post, PerQueue.get_set_other _ _ e]; exact h r
  setup _ := ⟨rfl, rfl, rfl⟩
  leads _ := ⟨rfl, rfl⟩

/-- A watch point written with its setup left as it was. -/
theorem setWp (p : Pair) (h : Nat) (w : WatchPoint) (hw : (s.wp p h).sameSetup w) : s.LineStep (s.setWp p h w) where
  resetAsserted := rfl
  presenceLine := rfl
  losInput := rfl
  straps := rfl
  epoch := rfl
  channels := rfl
  handed := rfl
  answers := rfl
  deferred := rfl
  views := rfl
  lineClaim := rfl
  tablesClaim := rfl
  lineSetup := rfl
  housings := rfl
  templates := rfl
  policies := rfl
  workQueue := rfl
  isolationQueue := rfl
  tagCounter := rfl
  chipHistory := rfl
  homes := rfl
  pending := rfl
  canonical h := ⟨h.1, h.2.1, Memory.wf_write _ _ _ h.2.2.1, h.2.2.2⟩
  bounded := id
  setup k := by
    simp only [State.watchPoints_setWp, Memory.read_write]
    split
    · next e => subst e; exact hw
    · exact ⟨rfl, rfl, rfl⟩
  leads _ := ⟨rfl, rfl⟩

theorem setStatus (p : Pair) (v : IsolationStatus) : s.LineStep (s.setStatus p v) where
  resetAsserted := rfl
  presenceLine := rfl
  losInput := rfl
  straps := rfl
  epoch := rfl
  channels := rfl
  handed := rfl
  answers := rfl
  deferred := rfl
  views := rfl
  lineClaim := rfl
  tablesClaim := rfl
  lineSetup := rfl
  housings := rfl
  templates := rfl
  policies := rfl
  workQueue := rfl
  isolationQueue := rfl
  tagCounter := rfl
  chipHistory := rfl
  homes := rfl
  pending := rfl
  canonical h := ⟨h.1, h.2.1, h.2.2.1, h.2.2.2.1, h.2.2.2.2.1, h.2.2.2.2.2.1, Memory.wf_write _ _ _ h.2.2.2.2.2.2⟩
  bounded := id
  setup _ := ⟨rfl, rfl, rfl⟩
  leads p' := by
    by_cases e : p' = p
    · subst e; simp [State.setStatus]
    · simp [State.setStatus, verdict_setVerdict_other _ _ e]

/-! ### Records and status -/

theorem postHome (ch : Channel) (b : RecordBody) : s.LineStep (s.postHome ch b) := post _ _

theorem postVerdict (p : Pair) (b : RecordBody) : s.LineStep (s.postVerdict p b) := post _ _

theorem postWork (w : Work) (b : RecordBody) : s.LineStep (s.postWork w b) := by
  obtain ⟨q, e⟩ := postWork_eq_post s w b; rw [e]; exact post _ _

theorem postCancelled (w : Work) : s.LineStep (s.postCancelled w) := by
  obtain ⟨q, b, e⟩ := postCancelled_eq_post s w; rw [e]; exact post _ _

theorem postCancelledAll (l : List Work) : s.LineStep (s.postCancelledAll l) := by
  induction l generalizing s with
  | nil => exact refl s
  | cons w l ih => exact (postCancelled w).trans ih

theorem idle : s.LineStep s.idle := path rfl id
theorem loadProbe : s.LineStep s.loadProbe := path rfl id
theorem alarmLos : s.LineStep s.alarmLos := path rfl id
theorem alarmSelector : s.LineStep s.alarmSelector := path rfl id
theorem alarmVerdict (p : Pair) : s.LineStep (s.alarmVerdict p) := path rfl id

theorem markQuarantine (p : Pair) (h d : Nat) (o : Origin) : s.LineStep (s.markQuarantine p h d o) := by
  unfold State.markQuarantine; split
  · exact refl s
  · exact after (postVerdict _ _) (setWp _ _ _ ⟨rfl, rfl, rfl⟩)

theorem unmarkQuarantine (p : Pair) (h : Nat) (o : Origin) : s.LineStep (s.unmarkQuarantine p h o) := by
  unfold State.unmarkQuarantine; split
  · exact refl s
  · exact after (postVerdict _ _) (setWp _ _ _ ⟨rfl, rfl, rfl⟩)

theorem writePump (p : Pair) (h : Nat) (v : Option PumpState) : s.LineStep (s.writePump p h v) := by
  cases v
  · exact refl s
  · exact setWp _ _ _ ⟨rfl, rfl, rfl⟩

/-! ### The ends of line work -/

theorem autoOutcome (p : Pair) (h : Nat) (o : WorkOutcome) (st : Option Word) :
    s.LineStep (s.autoOutcome p h o st) := by
  unfold State.autoOutcome
  split
  · exact setStatus _ _
  · split
    · exact setStatus _ _
    · exact (markQuarantine _ _ _ _).trans (setStatus _ _)

theorem autoOutcomeIf (b : Prop) [Decidable b] (p : Pair) (h : Nat) (o : WorkOutcome) (st : Option Word) :
    s.LineStep (if b then s.autoOutcome p h o st else s) := by
  split
  · exact autoOutcome _ _ _ _
  · exact refl s

theorem commandEnds (c : Current) (h : Nat) (op : Operation) (o : WorkOutcome) (st : Option Word)
    (tl : Option Telemetry) : s.LineStep (s.commandEnds c h op o st tl) :=
  after idle (after (autoOutcomeIf _ _ _ _ _) (after (postWork _ _) (writePump _ _ _)))

theorem sweepEnds (w : Work) (k : SweepKind) (o : WorkOutcome) (n m : Nat) : s.LineStep (s.sweepEnds w k o n m) :=
  after idle (postWork _ _)

theorem endWork (o : WorkOutcome) : s.LineStep (s.endWork o) := by
  unfold State.endWork; split
  · exact refl s
  · split
    · exact sweepEnds _ _ _ _ _
    · exact commandEnds _ _ _ _ _ _

theorem losEnds : s.LineStep s.losEnds := after (endWork _) alarmLos

theorem selectorFaultEnds : s.LineStep s.selectorFaultEnds := after (endWork _) (after alarmSelector (path rfl id))

theorem settleEnds : s.LineStep s.settleEnds := by
  unfold State.settleEnds; split
  · exact selectorFaultEnds
  · exact refl s

theorem abort (c : Current) : s.LineStep (s.abort c) := by
  unfold State.abort; split
  · exact after (endWork _) (path rfl id)
  · split
    · exact sweepEnds _ _ _ _ _
    · exact endWork _
  all_goals exact endWork _

/-! ### Into the line -/

theorem losEndsIf (b : Bool) : s.LineStep (if b then s.losEnds else s) := by
  cases b
  · exact refl s
  · exact losEnds

theorem enterSettle (c : Current) : s.LineStep (s.enterSettle c) := after (losEndsIf _) (path rfl id)

theorem enterTx (c : Current) : s.LineStep (s.enterTx c) := after (losEndsIf _) (path rfl id)

theorem enterLine (c : Current) : s.LineStep (s.enterLine c) := by
  unfold State.enterLine; split
  · exact enterSettle _
  · exact enterTx _

theorem confirmed (c : Current) : s.LineStep (s.confirmed c) := after (enterLine _) (path rfl id)

theorem confirmedIf (b : Prop) [Decidable b] (c : Current) : s.LineStep (if b then s.confirmed c else s) := by
  split
  · exact confirmed _
  · exact refl s

theorem selection (c : Current) : s.LineStep (s.selection c) := by
  unfold State.selection; split
  · exact enterLine _
  · exact after (confirmedIf _ _) (path rfl id)

theorem wf_clearSegments {m : Memory Cell} (l : List Segment) (h : Memory.wf cellDefault m = true) :
    Memory.wf cellDefault (clearSegments m l) = true := by
  induction l generalizing m with
  | nil => exact h
  | cons g l ih => exact ih (Memory.wf_clearRange _ _ _ h)

theorem allocate (l : List Segment) : s.LineStep (s.allocate l) := path rfl (wf_clearSegments l)

theorem startSweepChecks (c : Current) (k : SweepKind) : s.LineStep (s.startSweepChecks c k) := by
  unfold State.startSweepChecks
  dsimp only; split
  · exact sweepEnds _ _ _ _ _
  · split
    · exact sweepEnds _ _ _ _ _
    · exact after (selection _) (allocate _)

theorem startCommandChecks (c : Current) (h : Nat) (op : Operation) (n : Nat) :
    s.LineStep (s.startCommandChecks c h op n) := by
  unfold State.startCommandChecks
  dsimp only; split
  · exact commandEnds _ _ _ _ _ _
  · split
    · exact commandEnds _ _ _ _ _ _
    · exact after (selection _) (path rfl id)

theorem startChecks (c : Current) : s.LineStep (s.startChecks c) := by
  unfold State.startChecks; split
  · exact startSweepChecks _ _
  · exact startCommandChecks _ _ _ _

theorem setStatusIf (b : Prop) [Decidable b] (p : Pair) (v : IsolationStatus) :
    s.LineStep (if b then s.setStatus p v else s) := by
  split
  · exact setStatus _ _
  · exact refl s

theorem begin (w : Work) : s.LineStep (s.begin w) := by
  unfold State.begin
  have h : s.LineStep _ := after (setStatusIf (w.origin = .auto) w.pair .inFlight)
    (path (t := { s with current := some ⟨w, .startChecks, s.len⟩ }) rfl id)
  dsimp only; split
  · exact after (path rfl id) h
  · exact after (path rfl id) h

theorem positionLost : s.LineStep s.positionLost := by
  unfold State.positionLost; split
  · exact path rfl id
  · split <;> first | exact refl s | exact selectorFaultEnds | exact path rfl id

theorem positionLostUnless (b : Prop) [Decidable b] : s.LineStep (if b then s else s.positionLost) := by
  split
  · exact refl s
  · exact positionLost

theorem confirmShows (i : Option Pair) : s.LineStep (s.confirmShows i) := by
  unfold State.confirmShows
  have h : s.LineStep { s with confirmInput := i } := path rfl id
  dsimp only; split
  · exact h
  · split
    · split
      · exact after (confirmedIf _ _) h
      · exact after (positionLostUnless _) h
    · exact after (positionLostUnless _) h

/-! ### Commands on the line -/

theorem attemptEnds (c : Current) (cap : Captured) (o : WorkOutcome) (st : Option Word) (tl : Option Telemetry) :
    s.LineStep (s.attemptEnds c cap o st tl) := by
  unfold State.attemptEnds; split
  · exact enterTx _
  · exact commandEnds _ _ _ _ _ _

theorem classifiedInterval (c : Current) (cap : Captured) (n : Nat) (lit : Bool) :
    s.LineStep (s.classifiedInterval c cap n lit) := by
  unfold State.classifiedInterval; split
  · unfold State.readySearch; split
    · exact path rfl id
    · split
      · exact attemptEnds _ _ _ _ _
      · exact path rfl id
  · unfold State.startSearch; split
    · exact path rfl id
    · split
      · exact path rfl id
      · exact attemptEnds _ _ _ _ _
  · unfold State.dataInterval; dsimp only; split
    · exact path rfl id
    · exact attemptEnds _ _ _ _ _
  all_goals exact refl s

end State.LineStep

/-! ### The settle timer -/

/-- In SELECT with the limit reached the expiry is taken. -/
theorem State.settleEnds_due {s : State} {timer : SettleTimer} (hs : s.inState .select = true)
    (ht : s.settleTimer = some timer) (hd : timer.limit ≤ (s.epoch - timer.start).toNat) :
    s.settleEnds = s.selectorFaultEnds := by
  unfold State.settleEnds State.settleExpired
  rw [ht, hs, Bool.true_and]
  exact if_pos (decide_eq_true hd)

/-- Outside SELECT, and before the limit, there is no expiry to take. -/
theorem State.settleEnds_notDue {s : State}
    (h : ∀ timer, s.inState .select = true → s.settleTimer = some timer →
      (s.epoch - timer.start).toNat < timer.limit) : s.settleEnds = s := by
  refine if_neg fun hd => ?_
  rw [Bool.and_eq_true] at hd
  unfold State.settleExpired at hd
  cases ht : s.settleTimer with
  | none => rw [ht] at hd; exact Bool.false_ne_true hd.2
  | some timer =>
    rw [ht] at hd
    exact Nat.not_le.2 (h timer hd.1 ht) (of_decide_eq_true hd.2)

end Sys2Proof.Machine
end

