-- ==== Sys2Proof/Laws/Safety.lean ====
section
/-! SUPPORT. The lemmas of the terms in Safety.lean: what taking a request leaves, and how a list of checks decides. -/

namespace Sys2Proof.Machine

/-! ### What taking and answering a request leaves -/

@[simp] theorem wp_taken (s : State) (ch : Channel) (r : Request) (p : Pair) (n : Nat) :
    (s.taken ch r).wp p n = s.wp p n := rfl

@[simp] theorem wp_served (s : State) (ch : Channel) (r : Request) (h : Handed) (reply : Reply) (p : Pair) (n : Nat) :
    (s.served ch r h reply).wp p n = s.wp p n := rfl

@[simp] theorem housing_taken (s : State) (ch : Channel) (r : Request) (n : Nat) :
    (s.taken ch r).housing n = s.housing n := rfl

@[simp] theorem template_taken (s : State) (ch : Channel) (r : Request) (n : Nat) :
    (s.taken ch r).template n = s.template n := rfl

@[simp] theorem policy_taken (s : State) (ch : Channel) (r : Request) (p : Pair) :
    (s.taken ch r).policy p = s.policy p := rfl

@[simp] theorem verdict_taken (s : State) (ch : Channel) (r : Request) (p : Pair) :
    (s.taken ch r).verdict p = s.verdict p := rfl

@[simp] theorem claim_taken (s : State) (ch : Channel) (r : Request) (x : Resource) :
    (s.taken ch r).claim x = s.claim x := rfl

@[simp] theorem ccu_taken (s : State) (ch : Channel) (r : Request) (d : Channel) :
    (s.taken ch r).ccu d = s.ccu d := rfl

/-- The channel of an offered request is the one that offers it. -/
theorem offers_channel {s : State} {ch : Channel} {r : Request} {h : Handed} (hs : s.offers ch r h) :
    h.channel = ch := found_channel hs.2

theorem serve_offers {s : State} {ch : Channel} {r : Request} {h : Handed} (hs : s.offers ch r h)
    (f : Handed → State → State) : serve s ch r f = .next (f h (s.taken ch r)) := serve_found hs.1 hs.2 f

/-! ### Checks -/

/-- No check left: the request is carried out. -/
theorem judged_nil {s t done : State} {ch : Channel} {r : Request} {h : Handed} {D : Prop}
    (ht : t = (s.taken ch r).decided h [] done) (hd : t = done → D) : s.judged t ch r h D [] := hd ht

/-- One check more: its Bool test says its condition, and what follows may use that the condition does not hold. -/
theorem judged_cons {s t done : State} {ch : Channel} {r : Request} {h : Handed} {D : Prop} {b : Bool} {p : Prop}
    {st : Status} {tests : List (Bool × Status)} {checks : List (Prop × Status)}
    (ht : t = (s.taken ch r).decided h ((b, st) :: tests) done) (hb : b = true ↔ p)
    (hr : ¬ p → t = (s.taken ch r).decided h tests done → s.judged t ch r h D checks) :
    s.judged t ch r h D ((p, st) :: checks) := by
  refine ⟨fun hp => ?_, fun hp => hr hp ?_⟩
  · rw [ht]
    simp [State.decided, firstFailure, hb.2 hp, State.served]
  · have hf : b = false := by simpa using fun h1 => hp (hb.1 h1)
    rw [ht]
    simp [State.decided, firstFailure, hf]

/-- A request decided by its list of checks is judged check by check, when each Bool test says its condition. What is
done may use that no condition holds. -/
theorem decided_judged {s t done : State} {ch : Channel} {r : Request} {h : Handed} {D : Prop} :
    ∀ {tests : List (Bool × Status)} {checks : List (Prop × Status)},
      List.Forall₂ (fun a b => (a.1 = true ↔ b.1) ∧ a.2 = b.2) tests checks →
      ((∀ c ∈ checks, ¬ c.1) → t = done → D) → t = (s.taken ch r).decided h tests done → s.judged t ch r h D checks := by
  intro tests checks hl
  induction hl with
  | nil => exact fun hd ht => hd (fun _ hc => nomatch hc) ht
  | @cons a b tests checks hab _ ih =>
    intro hd ht
    refine ⟨fun hb => ?_, fun hb => ih (fun hall => hd fun c hc => ?_) ?_⟩
    · rw [ht, ← hab.2]
      simp [State.decided, firstFailure, hab.1.2 hb, State.served]
    · cases hc with
      | head => exact hb
      | tail _ hc => exact hall c hc
    · have ha : a.1 = false := by simpa using fun h1 => hb (hab.1.1 h1)
      rw [ht]
      simp [State.decided, firstFailure, ha]

/-- The same for a statement that a command answers a next state judged check by check. -/
theorem judged_intro {s done : State} {o : Host.Outcome State Fault Refusal} {ch : Channel} {r : Request} {h : Handed}
    {D : State → Prop} {tests : List (Bool × Status)} {checks : List (Prop × Status)}
    (ho : o = .next ((s.taken ch r).decided h tests done))
    (hl : List.Forall₂ (fun a b => (a.1 = true ↔ b.1) ∧ a.2 = b.2) tests checks)
    (hd : (∀ c ∈ checks, ¬ c.1) → D done) : ∃ t, o = .next t ∧ s.judged t ch r h (D t) checks :=
  ⟨_, ho, decided_judged hl (fun hall ht => ht ▸ hd hall) rfl⟩

/-! ### What the tests of the Table Store say -/

theorem lacksTables_taken {s : State} {ch : Channel} {r : Request} {h : Handed} (hc : h.channel = ch) :
    (s.taken ch r).lacksTables h = true ↔ s.tablesClaim.owner ≠ some ch := by
  simp [State.lacksTables, State.holds, State.claim, hc, State.taken]

theorem unfitted_taken {s : State} {ch : Channel} {r : Request} {h : Handed} :
    (s.taken ch r).unfitted h = true ↔ s.notFitted h.selector := by
  have e : (s.taken ch r).unfitted h = !decide (h.selector.val ≤ s.straps.pairsFitted.toNat) := rfl
  rw [e, State.notFitted, Bool.not_eq_true', decide_eq_false_iff_not, Nat.not_le]

theorem busy_taken {s : State} {ch : Channel} {r : Request} {p : Pair} :
    (s.taken ch r).busy p = true ↔ s.isBusy p := by
  simp [State.busy, State.busyPair, State.isBusy, State.taken]

theorem outside_iff {a b n : Nat} : outside a b n = true ↔ n < a ∨ b < n := by simp [outside]

theorem enabledAt_iff {s : State} {n : Nat} : s.enabledAt n = true ↔ s.someEnabled n := by
  simp only [State.enabledAt, State.someEnabled, List.any_eq_true]
  exact ⟨fun ⟨p, _, h⟩ => ⟨p, h⟩, fun ⟨p, h⟩ => ⟨p, mem_allPairs p, h⟩⟩

theorem someEnabled_taken {s : State} {ch : Channel} {r : Request} {n : Nat} :
    (s.taken ch r).someEnabled n ↔ s.someEnabled n := Iff.rfl

theorem clampTo_eq {a b n : Nat} (h : a ≤ b) : clampTo a b n = max a (min b n) := by
  unfold clampTo
  split <;> (try split) <;> omega

theorem onOff?_isNone {n : Nat} : (onOff? n).isNone = true ↔ 1 < n := by
  match n with
  | 0 | 1 => simp [onOff?]
  | n + 2 => simp [onOff?]

theorem bitOrder?_isNone {n : Nat} : (bitOrder? n).isNone = true ↔ 1 < n := by
  match n with
  | 0 | 1 => simp [bitOrder?]
  | n + 2 => simp [bitOrder?]

theorem nibbleOrder?_isNone {n : Nat} : (nibbleOrder? n).isNone = true ↔ 1 < n := by
  match n with
  | 0 | 1 => simp [nibbleOrder?]
  | n + 2 => simp [nibbleOrder?]

theorem queue?_isNone {n : Nat} : (queue? n).isNone = true ↔ 3 < n := by
  match n with
  | 0 | 1 | 2 | 3 => simp [queue?]
  | n + 4 => simp [queue?]

/-! ### Neighbours in the Housing Table -/

/-- The lag does not stand above that of the nearest present housing below (R19). -/
theorem presentBelow_iff (s : State) (n lag : Nat) (hn : 1 ≤ n) : (lag ≤ s.nominalLag (s.presentBelow n)) ↔
   ∃ b, b < n ∧ s.present b = true ∧ (∀ i, b < i → i < n → s.present i = false) ∧ lag ≤ s.nominalLag b := by
  have key : ∀ n, 1 ≤ n → ∃ b, ((List.range n).reverse.find? s.present) = some b ∧ b < n ∧ s.present b = true ∧ (∀ i, b < i → i < n → s.present i = false) := by
    intro n
    induction n with
    | zero => intro h; omega
    | succ n ih =>
      intro _
      rw [List.range_succ, List.reverse_append]
      simp only [List.reverse_cons, List.reverse_nil, List.nil_append, List.singleton_append, List.find?_cons]
      cases hp : s.present n with
      | true => exact ⟨n, rfl, by omega, hp, fun i h1 h2 => by omega⟩
      | false =>
        have hn : 1 ≤ n := by
          rcases Nat.eq_zero_or_pos n with h | h
          · subst h; simp [State.present] at hp
          · exact h
        obtain ⟨b, h1, h2, h3, h4⟩ := ih hn
        refine ⟨b, h1, by omega, h3, fun i hi hi' => ?_⟩
        rcases Nat.lt_or_ge i n with h | h
        · exact h4 i hi h
        · have : i = n := by omega
          rw [this]; exact hp
  obtain ⟨b, h1, h2, h3, h4⟩ := key n hn
  have e : s.presentBelow n = b := by unfold State.presentBelow; rw [h1]; rfl
  rw [e]
  constructor
  · intro h; exact ⟨b, h2, h3, h4, h⟩
  · rintro ⟨b', g1, g2, g3, g4⟩
    have : b' = b := by
      rcases Nat.lt_trichotomy b' b with h | h | h
      · have := g3 b h h2; rw [h3] at this; cases this
      · exact h
      · have := h4 b' h g1; rw [g2] at this; cases this
    rw [← this]; exact g4

/-- The lag does not stand below that of the nearest present housing above, if any (R19). -/
theorem presentAbove_iff (s : State) (n lag : Nat) (hn : n ≤ 192) : (match s.presentAbove n with | none => false | some a => decide (s.nominalLag a ≤ lag)) = true ↔
   ∃ a, n < a ∧ a ≤ 192 ∧ s.present a = true ∧ (∀ i, n < i → i < a → s.present i = false) ∧ s.nominalLag a ≤ lag := by
  have key : ∀ k m, ((List.range k).map (· + m)).find? s.present = none ∧ (∀ i, m ≤ i → i < m + k → s.present i = false) ∨ ∃ a, ((List.range k).map (· + m)).find? s.present = some a ∧ m ≤ a ∧ a < m + k ∧ s.present a = true ∧ (∀ i, m ≤ i → i < a → s.present i = false) := by
    intro k
    induction k with
    | zero => intro m; left; exact ⟨rfl, fun i _ _ => by omega⟩
    | succ k ih =>
      intro m
      have e : (List.range (k+1)).map (· + m) = m :: (List.range k).map (· + (m+1)) := by
        rw [List.range_succ_eq_map]; simp [Function.comp_def]; intros; omega
      rw [e, List.find?_cons]
      cases hp : s.present m with
      | true => right; exact ⟨m, rfl, by omega, by omega, hp, fun i _ _ => by omega⟩
      | false =>
        have hm : ∀ i, m ≤ i → (m + 1 ≤ i → s.present i = false) → s.present i = false := by
          intro i h1 h2
          rcases Nat.eq_or_lt_of_le h1 with h | h
          · rw [← h]; exact hp
          · exact h2 h
        rcases ih (m+1) with ⟨h1, h2⟩ | ⟨a, h1, h2, h3, h4, h5⟩
        · left; exact ⟨h1, fun i hi hj => hm i hi fun h => h2 i h (by omega)⟩
        · right; exact ⟨a, h1, by omega, by omega, h4, fun i hi hj => hm i hi fun h => h5 i h hj⟩
  unfold State.presentAbove
  rcases key (192 - n) (n+1) with ⟨h1, h2⟩ | ⟨a, h1, h2, h3, h4, h5⟩
  · rw [h1]; simp
    intro a ha hb hc
    have := h2 a (by omega) (by omega); rw [hc] at this; cases this
  · rw [h1]; simp
    constructor
    · intro h; exact ⟨a, by omega, by omega, h4, fun i hi hj => h5 i (by omega) hj, h⟩
    · rintro ⟨b, g1, g2, g3, g4, g5⟩
      have : b = a := by
        rcases Nat.lt_trichotomy a b with h | h | h
        · have := g4 a (by omega) h; rw [h4] at this; cases this
        · exact h.symm
        · have := h5 b (by omega) h; rw [g3] at this; cases this
      rw [← this]; exact g5

/-! ### Quarantine and tags -/

/-- An automatic quarantine does what `autoQuarantined` says, and touches watch points and queues alone (R108). -/
theorem markQuarantine_auto (s : State) (p : Pair) {n : Nat} (hn : n ≤ 192) (depth : Nat) :
    s.autoQuarantined (s.markQuarantine p n depth .auto) p n depth ∧
    ((s.markQuarantine p n depth .auto).wp p n).quarantine = some depth ∧
    s.markQuarantine p n depth .auto = { s with
      watchPoints := (s.markQuarantine p n depth .auto).watchPoints
      queues := (s.markQuarantine p n depth .auto).queues } := by
  unfold State.markQuarantine
  by_cases h : (s.wp p n).quarantine = some depth
  · rw [if_pos h]
    exact ⟨⟨fun hne => absurd h hne, fun _ => ⟨rfl, rfl⟩, fun _ _ _ _ => rfl⟩, h, rfl⟩
  · rw [if_neg h]
    have e (q : Pair) (i : Nat) (r : RQ) (b : RecordBody) (u : State) : (u.post r b).wp q i = u.wp q i := rfl
    refine ⟨⟨fun _ => ⟨?_, rfl⟩, fun h' => absurd h' h, fun q i hi hne => ?_⟩, ?_, rfl⟩ <;>
      simp only [State.postVerdict, e]
    · simp [State.wp, State.setWp]
    · exact wp_setWp_other s _ hn hi (by simpa only [ne_eq, Prod.mk.injEq, not_and_or] using hne)
    · simp [State.wp, State.setWp]

/-- The tag that an enqueue receives is the next free one (R43). -/
theorem nextTag_nextFree (s : State) : nextFree s.heldTags s.tagCounter s.nextTag :=
  ⟨freeTag_passes _ _ _, nextTag_free s⟩

/-! ### Records in order -/

@[simp] theorem postList_nil (s : State) (q : RQ) : s.postList q [] = s := rfl

theorem postList_cons (s : State) (q : RQ) (b : RecordBody) (l : List RecordBody) :
    s.postList q (b :: l) = (s.post q b).postList q l := rfl

@[simp] theorem postEach_nil (s : State) : s.postEach [] = s := rfl

theorem postEach_cons (s : State) (b : RQ × RecordBody) (l : List (RQ × RecordBody)) :
    s.postEach (b :: l) = (s.post b.1 b.2).postEach l := rfl

end Sys2Proof.Machine
end

