-- ==== Sys2Proof/WellFormed.lean ====
section
/-! DEFINITION. Which commands are well formed. The operand types already bound pairs, words, samples and straps;
what is left is the order operand of PRESENCE_LOSS. -/

namespace Sys2Proof

/-- A channel has at most 16 queued entries (R38), so at most 16 CANCELLED records can precede the release of its
claims (log 9). -/
def Instr.wellFormed : Instr → Bool
  | .presenceLoss _ before => before ≤ Config.workQueueSize
  | _ => true

end Sys2Proof
end

