-- ==== Sys2Proof/Tests/Slice0.lean ====
section
/-! SUPPORT. Tests of the model: the WellFormed smoke tests, the manual's worked examples, and for each statement with
hypotheses a state that meets them, with the outcome at the boundary values of its clauses. -/

namespace Sys2Proof.Tests
open Sys2Proof Sys2Proof.Machine

-- Each of these proofs waits for the kernel; elaborated side by side, every waiting one would hold a thread.
set_option Elab.async false

/-! ### Helpers -/

/-- The state a command leaves; none of the commands faults or is refused. -/
def after (c : Instr) (s : State) : State :=
  match exec c s with
  | .next t => t
  | _ => s

/-- Channel 0 owns both resources with tag 5; m = 11, so L = 2047; the epoch is 9. -/
def base : State :=
  { State.reset with
    lineSetup := { m := 11, k := 0, refLag := 64, settle := 50 }, epoch := 9
    lineClaim := ⟨some .ch0, 5, 1⟩, tablesClaim := ⟨some .ch0, 5, 1⟩ }

/-- A request of channel 0. -/
def request (r : Request) (sel : Pair) (params : List Word) : Handed := ⟨.ch0, r, sel, params, true, false⟩

/-- Channel 0 has handed over a request. -/
def ask (s : State) (r : Request) (sel : Pair) (params : List Word) : State :=
  { s with handed := [request r sel params] }

/-- Status and data of the answer to a request made of a state. -/
def reply (c : Channel → Instr) (s : State) (r : Request) (sel : Pair) (params : List Word) :
    Option (Status × Bool × List Word) :=
  (after (c .ch0) (ask s r sel params)).answers.getLast?.map fun a => (a.reply.status, a.reply.clamped, a.reply.data)

/-- The statuses alone, for a list of parameter words. -/
def statuses (c : Channel → Instr) (s : State) (r : Request) (sel : Pair) (l : List (List Word)) : List (Option Status) :=
  l.map fun params => (reply c s r sel params).map (·.1)

/-- Housings 1, 2 and 4 present; housing 2 swap-capable and long-capable, housing 4 in the other dialect. -/
def housed (s : State) : State :=
  ((s.setHousing 1 ⟨true, 11, 700, .msbFirst, .highFirst, false, false⟩).setHousing 2
    ⟨true, 1234, 1290, .msbFirst, .highFirst, true, true⟩).setHousing 4 ⟨true, 14, 1880, .lsbFirst, .lowFirst, false, false⟩

/-- Watch point (2, h) enabled and measured, its centre lag on its nominal lag. -/
def watched (s : State) (h : Nat) (level : Nat) : State :=
  s.setWp 2 h { s.wp 2 h with enabled := true, level := some level, norm := some 4096, baseline := some 4096
                              deviation := some 1024, condition := .normal, centre := s.nominalLag h }

/-- The line with its housings, the reference and housings 1 and 2 of pair 2 enabled. -/
def ready : State := watched (watched (watched (housed base) 0 100) 1 100) 2 100

def sweepWork : Work := ⟨1, .channel .ch0, 2, .sweep .monitor 1⟩
def swapWork : Work := ⟨1, .channel .ch0, 2, .command 2 .pumpSwap 2⟩
def markWork : Work := ⟨1, .channel .ch0, 2, .command 2 .mark 2⟩

/-- Work in a state of the line, with the chip timer at an instant. -/
def onLineAt (s : State) (w : Work) (st : LineState) (index ends : Nat) : State :=
  { s with
    current := some ⟨w, st, 2047⟩, chipTimer := some ⟨index, ends⟩, position := some 2, requested := some 2
    confirmInput := some 2, generator := { m := 11, k := 0, stages := BitVec.ofNat 15 2047 } }

/-- What a command captured for housing 2. -/
def captured : Captured :=
  { address := 1234, bitOrder := .msbFirst, nibbleOrder := .highFirst, levelOn := 100, threshold := 50, periods := 4
    busyLimit := 60, attempts := 2, sequence := transmission .msbFirst .highFirst (frameOf 1234 2 2) }

/-- A command with its one segment of 4 cells, in a phase of the Command Unit. -/
def commandAt (w : Work) (st : LineState) (phase : CommandPhase) (index ends : Nat) : State :=
  { onLineAt ready w st index ends with
    allocation := [⟨2, 4, 1290, 0⟩]
    cmu := { CommandUnit.reset with phase := phase, captured := some captured, attempt := 1, bit := 1, interval := 3 } }

/-- A closed interval whose level is well above, or below, the threshold. -/
def interval (number : Nat) (lit : Bool) : Interval := ⟨number, [0, if lit then 100000 else 0, 0, 0]⟩

/-- An evaluation of pair 2 at a stage, with the segments left. -/
def evaluatingAt (stage : EvalStage) (remaining : List Segment) : State :=
  { ready with
    current := some ⟨sweepWork, .evaluate, 2047⟩, position := some 2, allocation := [⟨0, 4, 64, 0⟩, ⟨2, 4, 1290, 4⟩]
    evaluation := some
      { remaining := remaining, policy := ready.policy 2, refLevel := 100, evaluated := 0, saturated := 0
        degraded := false, refLost := false, stage := stage } }

/-- The Verdict Register of pair 2 in a state. -/
def withVerdict (s : State) (candidate confirmed : Option Verdict) (streak : Nat) (st : IsolationStatus) (n : Nat) : State :=
  s.setVerdict 2 { candidate := candidate, streak := streak, confirmed := confirmed, raised := 3, status := st
                   postSwap := n }

/-- Pair 2 allows automatic isolation. -/
def isolating (s : State) : State := s.setPolicy 2 { s.policy 2 with autoIsolate := true }

def degraded2 : Verdict := ⟨.amplifierDegraded, 2⟩

/-! ### WellFormed and decoding -/

/-- PRESENCE_LOSS with 17 records ahead of the claims is not well formed: a channel has at most 16 entries. -/
theorem test_wellFormed_refuses_presenceLoss_17 : (Instr.presenceLoss .ch0 17).wellFormed = false := by decide

theorem test_wellFormed_accepts_boundary :
    (Instr.presenceLoss .ch2 16).wellFormed = true ∧ (Instr.functionWord .ch0 0xFFFF).wellFormed = true := by decide

/-- No row of the table gives bits, so no word spells a command. -/
theorem test_no_word_spells_a_command :
    decodeTableWord 16 0 = none ∧ State.reset.withFetchWord 16 0xFFFF = State.reset := by decide

/-! ### Worked examples of the manual -/

/-- Section 7.3, the worked frame. -/
theorem test_worked_frame : frameOf 1234 2 2 = 0x4D24B7 ∧ frameOf 4095 7 7 = 0xFFFFFD := by decide

/-- Section 7.3, the four dialects of the worked frame. -/
theorem test_worked_dialects :
    let bits (b : BitOrder) (n : NibbleOrder) : Nat :=
      (transmission b n 0x4D24B7).foldl (fun a x => 2 * a + x.toNat) 0
    bits .msbFirst .highFirst = 0xF24D24B7 ∧ bits .lsbFirst .highFirst = 0xF22B42DE ∧
    bits .msbFirst .lowFirst = 0xF27B42D4 ∧ bits .lsbFirst .lowFirst = 0xF2ED24B2 := by decide

/-- Section 11.8, the worked status word, and one whose operation does not match. -/
theorem test_worked_status_word :
    statusOutcome .pumpSwap 2 1234 0x48D2 = .done ∧ statusPump 0x48D2 = .secondary ∧
    statusOutcome .mark 2 1234 0x48D2 = .mismatch ∧ statusOutcome .pumpSwap 2 1234 0x4BD2 = .mismatch := by decide

/-- Section 11.7, the worked record. -/
theorem test_worked_record :
    Record.words ⟨.commandDone 9 .auto 2 37 .pumpSwap .done 2 (some 0x48D2) none, 0x00010002⟩ =
      [0x0207, 1, 2, 0x098A, 0x2548, 8, 0x48D2] := by decide

/-- Section 5.3, the worked levels. -/
theorem test_worked_levels :
    levelOf 12345678 64 32767 = 94 ∧ levelOf 98563200 64 32767 = 752 ∧ levelOf 2147483647 40 32767 = 26215 ∧
    levelOf 600000 32 8191 = 36 ∧ levelOf (-5000) 32 8191 = 0 ∧ levelOf 134217728 1 32767 = 32767 := by decide

/-- Section 5.6, the worked tracking cases with a fresh NORMAL or WATCH. -/
theorem test_worked_tracking :
    let lag (centre offset : Nat) : Nat := movedLag ⟨16, 4⟩ 2000 32767 centre offset
    lag 2000 9 = 2001 ∧ lag 2006 15 = 2008 ∧ lag 2008 15 = 2008 ∧ lag 2001 3 = 1997 ∧ lag 1994 0 = 1992 := by decide

/-- Items 1, 2, … with their conditions; NORMAL at 1000, WATCH at 800, LOW at 500, ABSENT at 100, but UNREFERENCED
watch points are no items. -/
def items (l : List Condition) : List Item :=
  (l.zipIdx 1).filterMap fun c =>
    match c.1 with
    | .normal => some ⟨c.2, .normal, some 1000⟩
    | .watch => some ⟨c.2, .watch, some 800⟩
    | .low => some ⟨c.2, .low, some 500⟩
    | .absent => some ⟨c.2, .absent, some 100⟩
    | _ => none

/-- Section 6.1, the worked scans 1 to 12. -/
theorem test_worked_scans :
    let n := Condition.normal
    let w := Condition.watch
    let l := Condition.low
    let a := Condition.absent
    let scan (x : List Condition) (marks : List (Nat × Nat)) : Option Verdict :=
      candidateOf { State.reset.policy 0 with recoveryDepth := 2, tolerance := 64 } (items x) marks
    scan [n, n, n, l, w, n, n, n] [] = some ⟨.amplifierDegraded, 4⟩ ∧
    scan [n, n, a, a, a, a, a, a] [] = some ⟨.sectionOpen, 3⟩ ∧
    scan [n, n, w, w, w, w, w, w] [] = some ⟨.sectionExcessLoss, 3⟩ ∧
    scan [n, n, a, n, n, n, n, n] [] = some ⟨.loopbackFault, 3⟩ ∧
    scan [n, n, a, a, n, n, n, n] [] = some ⟨.unresolved, 3⟩ ∧
    scan [n, n, l, w, w, a, a, a] [] = some ⟨.unresolved, 3⟩ ∧
    scan [n, n, n, n, n, n, n, w] [] = some ⟨.sectionExcessLoss, 8⟩ ∧
    scan [n, n, n, n, n, n, n, a] [] = some ⟨.sectionOpen, 8⟩ ∧
    scan [n, n, n, n, n, n, n, n] [] = none ∧
    scan [n, n, l, a, w, n, n, n] [(3, 1)] = some ⟨.loopbackFault, 4⟩ ∧
    scan [n, n, n, l, w, n, a, a] [(4, 2)] = some ⟨.sectionOpen, 7⟩ ∧
    scan [n, n, n, n, .unreferenced, l, n, n] [] = some ⟨.amplifierDegraded, 6⟩ := by decide +kernel

/-- Section 4.4: a cell stops at its limit with its marker, and stays. -/
theorem test_worked_saturation :
    Cell.add ⟨2147482800, false⟩ 1800 = ⟨2147483647, true⟩ ∧ Cell.add ⟨2147483647, true⟩ (-5) = ⟨2147483647, true⟩ ∧
    Cell.add ⟨2147483640, false⟩ 7 = ⟨2147483647, false⟩ ∧ Cell.add ⟨-2147483648, false⟩ (-1) = ⟨-2147483648, true⟩ := by
  decide

/-- Section 2.2, the worked lag-order cases, at L = 32767 with housing 4 at 2480. -/
theorem test_worked_lag_order :
    let s : State := { base with lineSetup := State.reset.lineSetup }
    let s := ((s.setHousing 1 ⟨true, 11, 700, .msbFirst, .highFirst, false, false⟩).setHousing 2
      ⟨true, 12, 1290, .msbFirst, .highFirst, false, false⟩).setHousing 4
      ⟨true, 14, 2480, .msbFirst, .highFirst, false, false⟩
    statuses .writeHousing s .writeHousing 0
      [[3, 1, 13, 1880, 0, 0, 0, 0], [3, 1, 13, 2480, 0, 0, 0, 0], [3, 1, 14, 1880, 0, 0, 0, 0],
       [1, 1, 11, 50, 0, 0, 0, 0], [1, 1, 11, 690, 0, 0, 0, 0], [2, 0, 0, 0, 9, 9, 9, 9], [5, 1, 15, 32740, 0, 0, 0, 0]] =
    [some .accepted, some .lagOrder, some .duplicateAddress, some .lagOrder, some .accepted, some .accepted,
     some .outOfRange] := by decide +kernel

/-- Section 3.3: held tags are passed over, and 255 is followed by 0. -/
theorem test_tags_pass_over_held :
    freeTag [255, 0, 2] 256 254 = 254 ∧ freeTag [255, 0, 2] 256 255 = 1 ∧ freeTag [] 256 255 = 255 := by decide

/-! ### Witnesses: step, reset, time, presence -/

/-- StepRunsFrontCommand: a command in front, and the empty queue. -/
theorem witness_step :
    step { base with pending := [.epochTick, .resetAssert] } =
      .next { base with epoch := 10, pending := [.resetAssert] } ∧
    step base = .next base := ⟨rfl, rfl⟩

/-- ResetReturnsEveryBlock: a release with the reset input asserted. -/
theorem witness_reset :
    let s := after .resetAssert (ask (onLineAt ready sweepWork .integrate 2047 1) .check 0 [5])
    let t := after (.resetRelease ⟨2, ⟨.observe, .full, .full⟩, false⟩) { s with presenceLine := ⟨true, false, true⟩ }
    s.resetAsserted = true ∧ s.handed = [] ∧ s.current = none ∧ t.resetAsserted = false ∧ t.straps.pairsFitted = 2 ∧
    (t.ccu .ch0).phase = .idle ∧ (t.ccu .ch1).phase = .disconnected ∧ t.views = ⟨true, false, true⟩ ∧
    t.lineSetup = State.reset.lineSetup ∧ t.epoch = 0 := by decide +kernel

/-- EpochCounterRule: the wrap; a settle timer one short of its limit, and one at it, whose expiry is taken before the next
millisecond. -/
theorem witness_epoch :
    let select := { ready with
      current := some ⟨sweepWork, .select, 2047⟩, requested := some 2, settleTimer := some ⟨0, 9⟩, position := none }
    let early := { select with settleTimer := some ⟨0, 10⟩ }
    after .epochTick early = { early with epoch := 10 } ∧ (after .epochTick early).inState .select = true ∧
    (after .epochTick select).epoch = 10 ∧ (after .epochTick select).current = none ∧
    (after .epochTick select).alarms.selectorFault = true ∧
    after (.selectorConfirm 2) (after .epochTick select) = { after .epochTick select with confirmInput := some 2 } ∧
    (after .epochTick select).queues.rq0.records.map (fun r => (r.body, r.time)) =
      [(.sweepDone 1 2 .monitor .selectorFault 0 0 0, 9)] ∧
    (after .epochTick { base with epoch := 0xFFFFFFFF }).epoch = 0 ∧ (after .epochTick base).epoch = 10 ∧
    (after .resetAssert base).epoch = 0 ∧
    after .epochTick (after .resetAssert base) = after .resetAssert base := by decide +kernel

/-- PresenceMovesTheChannel: a loss with both claims and two entries queued, the second CANCELLED record after the claims'. -/
theorem witness_presence_loss :
    let s := { ask base .check 0 [5] with workQueue := [sweepWork, ⟨2, .channel .ch1, 0, sweepWork.kind⟩, ⟨3, .channel .ch0, 0, sweepWork.kind⟩] }
    let t := after (.presenceLoss .ch0 1) s
    s.resetAsserted = false ∧ (s.ccu .ch0).phase ≠ .disconnected ∧
    t.queues.rq0.records.map (·.body) = [.sweepDone 1 2 .monitor .cancelled 0 0 0, .claimLost .line .ch0 .presenceLost,
      .claimLost .tables .ch0 .presenceLost, .sweepDone 3 0 .monitor .cancelled 0 0 0] ∧
    t.lineClaim = ⟨none, 0, 9⟩ ∧ t.workQueue.map (·.tag) = [2] ∧ t.handed.map (fun h => (h.live, h.lost)) = [(false, true)] ∧
    t.views = ⟨false, true, true⟩ ∧ (t.ccu .ch0).phase = .disconnected := by decide +kernel

/-- PresenceMovesTheChannel: the return, a return in another phase, a second fall, and both with the reset input
asserted. -/
theorem witness_presence_return :
    let s := after (.presenceLoss .ch0 0) base
    let t := after (.presenceReturn .ch0) s
    let held := after .resetAssert base
    (after (.presenceLoss .ch1 0) held).presenceLine = ⟨true, false, true⟩ ∧
    after (.presenceReturn .ch1) (after (.presenceLoss .ch1 0) held) = held ∧
    (s.ccu .ch0).phase = .disconnected ∧ (t.ccu .ch0).phase = .idle ∧ t.views = ⟨true, true, true⟩ ∧
    t.lineClaim.owner = none ∧ after (.presenceReturn .ch0) base = base ∧ after (.presenceLoss .ch0 0) s = s := by
  decide +kernel

/-! ### Witnesses: channels -/

/-- FunctionWordOpensTransaction: a request without parameters, one with, an undefined code; the discard marker. -/
theorem witness_function_word :
    let read := encodeFunctionWord .readTime 7
    let write := encodeFunctionWord .writeTemplate 3
    let busy := after (.functionWord .ch0 write) base
    (decodeRequest (functionCode read) = some .readTime ∧ Request.parameterCount .readTime = 0 ∧
      (after (.functionWord .ch0 read) base).handed = [⟨.ch0, .readTime, 7, [], true, false⟩]) ∧
    (busy.ccu .ch0).phase = .parameters ∧ (busy.ccu .ch0).collecting = some ⟨.writeTemplate, 3⟩ ∧
    decodeRequest (functionCode 0xFFFF) = some .clearPort ∧ decodeRequest (functionCode 0) = none ∧
    ((after (.functionWord .ch0 0) busy).ccu .ch0).reply = [0x0604, 0] ∧
    ((after (.functionWord .ch0 0) base).ccu .ch0).reply = [0x0600, 0] := by decide +kernel

/-- ParameterWordsAreCollected: the words of WRITE_TEMPLATE, a block that ends short, and stray words: while the master
waits for a reply, in PARAMETERS, and in DISCONNECTED. -/
theorem witness_parameter_words :
    let s0 := after (.functionWord .ch0 (encodeFunctionWord .writeTemplate 0)) base
    let s2 := after (.parameterWord .ch0 16) (after (.parameterWord .ch0 1) s0)
    let s3 := after (.parameterWord .ch0 4) s2
    (s0.ccu .ch0).collecting = some ⟨.writeTemplate, 0⟩ ∧ (s2.ccu .ch0).params = [1, 16] ∧
    (s2.ccu .ch0).handshake = ⟨false, true, false, true⟩ ∧ s2.handed = [] ∧
    s3.handed = [request .writeTemplate 0 [1, 16, 4]] ∧ (s3.ccu .ch0).phase = .awaiting ∧
    ((after (.shortParameters .ch0) s2).ccu .ch0).reply = [0x0500, 0] ∧ after (.strayWord .ch0 7) s2 = s2 ∧
    (let waits := after (.replyWordRead .ch0) s3
     (waits.ccu .ch0).handshake = ⟨false, true, false, false⟩ ∧ after (.strayWord .ch0 7) waits = s3 ∧
     after (.parameterWord .ch0 7) waits = s3) ∧
    (let gone := after (.presenceLoss .ch0 0) s3
     after (.strayWord .ch0 7) gone = gone ∧ after (.parameterWord .ch0 7) gone = gone) := by decide +kernel

/-- The channel asked the time and the answer has been given. -/
def answered : State := after (.readTime .ch0) (after (.functionWord .ch0 (encodeFunctionWord .readTime 0)) base)

/-- AnswerBuildsReply, ReplyIsReadOrAbandoned: an open and a stale answer, the last word, and an abandoned reply. -/
theorem witness_reply :
    let s := after (.answerTaken .ch0) answered
    let last := after (.replyWordRead .ch0) (after (.replyWordRead .ch0) (after (.replyWordRead .ch0) s))
    answered.answers.map (·.live) = [true] ∧ (answered.ccu .ch0).phase = .awaiting ∧
    (s.ccu .ch0).reply = [0, 0x0200, 0, 9] ∧ s.answers = [] ∧ (last.ccu .ch0).reply = [9] ∧
    ((after (.replyWordRead .ch0) last).ccu .ch0).phase = .idle ∧
    ((after (.replyAbandoned .ch0) last).ccu .ch0).discard = true ∧
    (let stray := after (.strayWord .ch0 7) last
     (last.ccu .ch0).handshake = ⟨false, true, true, false⟩ ∧ (stray.ccu .ch0).handshake = .rest ∧
     (stray.ccu .ch0).phase = .reply ∧ (stray.ccu .ch0).reply = [9]) ∧
    ((after (.replyWordRead .ch0) answered).ccu .ch0).handshake = ⟨false, true, false, false⟩ ∧
    ((after (.replyAbandoned .ch0) answered).ccu .ch0).phase = .awaiting := by decide +kernel

/-- AnswerBuildsReply, ClearPortBeginsAgain: a port cleared while an answer waits; that answer is then discarded. -/
theorem witness_clear_port :
    let s := after (.functionWord .ch0 0xFC00) answered
    functionCode 0xFC00 = 0x3F ∧ (answered.ccu .ch0).phase ≠ .disconnected ∧ s = after (.clearPort .ch0) answered ∧
    (s.ccu .ch0).reply = [0, 0] ∧ s.answers.map (·.live) = [false] ∧
    after (.answerTaken .ch0) s = { s with answers := [] } ∧
    (let gone := after (.presenceLoss .ch0 0) answered
     after (.clearPort .ch0) gone = gone ∧ (gone.ccu .ch0).phase = .disconnected) := by decide +kernel

/-! ### Witnesses: claims and alarms -/

/-- ClaimRequestsCheckedInOrder: an ABSENT view, a presence lost and returned since the handing over, an OBSERVE strap, and
a resource beyond TABLES. -/
theorem witness_claim_checks :
    let observe := { base with straps := { base.straps with permits := ⟨.observe, .full, .full⟩ } }
    (ask base .claim 2 [5]).offers .ch0 .claim (request .claim 2 [5]) ∧
    reply .claim { base with views := ⟨false, true, true⟩ } .claim 0 [5] = none ∧
    (let back := after (.presenceReturn .ch0) (after (.presenceLoss .ch0 0) (ask base .claim 0 [5]))
     back.views = ⟨true, true, true⟩ ∧ after (.claim .ch0) back = { back with handed := [] } ∧
     back.lineClaim.owner = none) ∧
    statuses .claim observe .claim 0 [[5]] = [some .notPermitted] ∧
    statuses .check observe .check 0 [[5]] = [some .accepted] ∧
    reply .check base .check 1 [5] = some (.accepted, false, [0, 1]) ∧
    statuses .check base .check 2 [[5]] = [some .outOfRange] := ⟨⟨rfl, rfl⟩, by decide +kernel⟩

/-- ClaimGrantsFreeResource: free, own, HELD, and NOT_CLEAN. -/
theorem witness_claim :
    let free := { base with lineClaim := ⟨none, 0, 0⟩ }
    let held := { base with lineClaim := ⟨some .ch1, 5, 0⟩ }
    let unclean := { free with alarms := { free.alarms with receiverLos := true } }
    resource? 0 = some .line ∧ (ask free .claim 0 [8]).offers .ch0 .claim (request .claim 0 [8]) ∧
    (after (.claim .ch0) (ask free .claim 0 [8])).lineClaim = ⟨some .ch0, 8, 9⟩ ∧
    (after (.claim .ch0) (ask base .claim 0 [8])).lineClaim = ⟨some .ch0, 8, 1⟩ ∧
    reply .claim held .claim 0 [8] = some (.abort, false, [1, 2]) ∧
    reply .claimIfClean unclean .claimIfClean 0 [8] = some (.abort, false, [2, 0]) ∧
    reply .claimIfClean free .claimIfClean 0 [8] = some (.accepted, false, [0, 1]) :=
  ⟨rfl, ⟨rfl, rfl⟩, by decide +kernel⟩

/-- CheckAndReleaseAskTheOwner: owner, other owner, wrong tag; release by owner and by another. -/
theorem witness_check_release :
    let held := { base with lineClaim := ⟨some .ch1, 5, 0⟩ }
    (ask base .check 0 [5]).offers .ch0 .check (request .check 0 [5]) ∧
    (ask base .release 0 []).offers .ch0 .release (request .release 0 []) ∧
    reply .check base .check 0 [5] = some (.accepted, false, [0, 1]) ∧
    reply .check base .check 0 [6] = some (.abort, false, [4, 1]) ∧
    reply .check held .check 0 [5] = some (.abort, false, [3, 2]) ∧
    (after (.release .ch0) (ask base .release 0 [])).lineClaim = ⟨none, 0, 9⟩ ∧
    reply .release held .release 0 [] = some (.abort, false, [3, 2]) := ⟨⟨rfl, rfl⟩, ⟨rfl, rfl⟩, by decide +kernel⟩

/-- TakeoverNeedsTheTag: NONE, own, equal tags, other tags. -/
theorem witness_takeover :
    let free := { base with lineClaim := ⟨none, 0, 0⟩ }
    let held := { base with lineClaim := ⟨some .ch1, 5, 0⟩ }
    let t := after (.takeover .ch0) (ask held .takeover 0 [5])
    (ask held .takeover 0 [5]).offers .ch0 .takeover (request .takeover 0 [5]) ∧
    reply .takeover free .takeover 0 [5] = some (.abort, false, [5, 0]) ∧
    reply .takeover base .takeover 0 [6] = some (.accepted, false, [0, 1]) ∧
    t.lineClaim = ⟨some .ch0, 5, 9⟩ ∧ t.queues.rq1.records.map (·.body) = [.claimLost .line .ch1 .takenOver] ∧
    reply .takeover held .takeover 0 [6] = some (.abort, false, [4, 2]) := ⟨⟨rfl, rfl⟩, by decide +kernel⟩

/-- AckAlarmClearsOneItem: the three items set, the first number that is no item, a pair not fitted, an OBSERVE strap. -/
theorem witness_ack_alarm :
    let s := { base with alarms := ⟨0x84, true, true⟩ }
    let few := { s with straps := { s.straps with pairsFitted := 1 } }
    let observe := { s with straps := { s.straps with permits := ⟨.observe, .full, .full⟩ } }
    (ask s .ackAlarm 7 [0]).offers .ch0 .ackAlarm (request .ackAlarm 7 [0]) ∧
    (after (.ackAlarm .ch0) (ask s .ackAlarm 7 [0])).alarms = ⟨0x04, true, true⟩ ∧
    (after (.ackAlarm .ch0) (ask s .ackAlarm 7 [1])).alarms = ⟨0x84, false, true⟩ ∧
    (after (.ackAlarm .ch0) (ask s .ackAlarm 7 [2])).alarms = ⟨0x84, true, false⟩ ∧
    reply .ackAlarm s .ackAlarm 1 [0] = some (.accepted, false, [0]) ∧
    statuses .ackAlarm s .ackAlarm 0 [[3]] = [some .outOfRange] ∧
    statuses .ackAlarm few .ackAlarm 2 [[0], [1]] = [some .outOfRange, some .accepted] ∧
    statuses .ackAlarm observe .ackAlarm 0 [[1]] = [some .notPermitted] := ⟨⟨rfl, rfl⟩, by decide +kernel⟩

/-! ### Witnesses: the Table Store -/

/-- LineSetupIsReplacedWhole: the ends of the ranges, an entry queued, a lag of L - 32 and a reference lag not below. -/
theorem witness_line_setup :
    let s := base.setHousing 1 ⟨true, 11, 2014, .msbFirst, .highFirst, false, false⟩
    let t := after (.writeLineSetup .ch0) (ask s .writeLineSetup 0 [11, 6, 2013, 255])
    (ask s .writeLineSetup 0 [11, 6, 2013, 255]).offers .ch0 .writeLineSetup
      (request .writeLineSetup 0 [11, 6, 2013, 255]) ∧
    t.lineSetup = ⟨11, 6, 2013, 255⟩ ∧
    statuses .writeLineSetup s .writeLineSetup 0
      [[10, 0, 64, 50], [16, 0, 64, 50], [11, 7, 64, 50], [11, 0, 31, 50], [11, 0, 32, 50], [11, 0, 2014, 50],
       [11, 0, 2015, 50], [11, 0, 64, 0], [11, 0, 64, 256]] =
      [some .outOfRange, some .outOfRange, some .outOfRange, some .outOfRange, some .accepted, some .lagOrder,
       some .outOfRange, some .outOfRange, some .outOfRange] ∧
    statuses .writeLineSetup (s.setHousing 1 { s.housing 1 with lag := 2015 }) .writeLineSetup 0 [[11, 0, 64, 50]] =
      [some .lagOrder] ∧
    statuses .writeLineSetup { s with workQueue := [sweepWork] } .writeLineSetup 0 [[11, 0, 64, 50]] =
      [some .lineNotIdle] ∧
    statuses .writeLineSetup { s with tablesClaim := ⟨none, 0, 0⟩ } .writeLineSetup 0 [[10, 0, 64, 50]] =
      [some .notClaimed] := ⟨⟨rfl, rfl⟩, by decide +kernel⟩

/-- HousingWriteKeepsLagOrder: the ends of the ranges, an enabled watch point, the entry after a write, a removal, and a
present word that is neither yes nor no. -/
theorem witness_housing :
    let w (n p a lag : Word) : List Word := [n, p, a, lag, 1, 0, 1, 0]
    let t := after (.writeHousing .ch0) (ask (housed base) .writeHousing 0 (w 192 1 4094 2014))
    let off := after (.writeHousing .ch0) (ask (housed base) .writeHousing 0 (w 4 0 0 0))
    (ask ready .writeHousing 0 (w 4 1 14 1880)).offers .ch0 .writeHousing (request .writeHousing 0 (w 4 1 14 1880)) ∧
    t.housing 192 = ⟨true, 4094, 2014, .lsbFirst, .highFirst, true, false⟩ ∧ (t.wp 3 192).centre = 2014 ∧
    off.housing 4 = housingDefault 4 ∧ (off.wp 0 4).centre = 36 ∧
    statuses .writeHousing ready .writeHousing 0
      [w 0 1 1 100, w 193 1 1 100, w 3 1 0 1300, w 3 1 4095 1300, w 5 1 7 2015, w 1 1 7 700, w 1 0 0 0, w 3 1 14 1300,
       w 3 1 7 1290, w 3 1 7 1291, w 3 1 7 1879, w 3 1 7 1880, w 3 2 7 1300, [3, 1, 7, 1300, 2, 0, 0, 0]] =
      [some .outOfRange, some .outOfRange, some .outOfRange, some .outOfRange, some .outOfRange,
       some .watchPointEnabled, some .watchPointEnabled, some .duplicateAddress, some .lagOrder, some .accepted,
       some .accepted, some .lagOrder, some .outOfRange, some .outOfRange] := ⟨⟨rfl, rfl⟩, by decide +kernel⟩

/-- TemplateWriteKeepsWindows: the ends of the ranges, a template in use, and a centre lag moved into the window. -/
theorem witness_template :
    let s := base.setWp 0 5 { base.wp 0 5 with centre := 41, template := 1 }
    let t := after (.writeTemplate .ch0) (ask s .writeTemplate 0 [1, 6, 2])
    (ask s .writeTemplate 0 [1, 6, 2]).offers .ch0 .writeTemplate (request .writeTemplate 0 [1, 6, 2]) ∧
    t.template 1 = ⟨6, 1⟩ ∧ nearCentre (s.nominalLag 5) 6 (s.wp 0 5).centre = 40 ∧
    reply .writeTemplate s .writeTemplate 0 [1, 6, 2] = some (.accepted, true, []) ∧
    reply .writeTemplate s .writeTemplate 0 [3, 64, 16] = some (.accepted, false, []) ∧
    statuses .writeTemplate s .writeTemplate 0 [[4, 8, 0], [0, 2, 0], [0, 4, 0], [0, 5, 0], [0, 66, 0]] =
      [some .outOfRange, some .outOfRange, some .accepted, some .outOfRange, some .outOfRange] ∧
    statuses .writeTemplate ready .writeTemplate 0 [[1, 8, 0], [2, 8, 0]] = [some .templateInUse, some .accepted] :=
  ⟨⟨rfl, rfl⟩, by decide +kernel⟩

/-- WatchPointFieldsAreWritten: both requests at the ends of their ranges, for a busy pair and an enabled record. -/
theorem witness_watch_point :
    let busy := onLineAt ready sweepWork .integrate 2047 1
    let t := after (.writeWatchPoint .ch0) (ask base .writeWatchPoint 7 [192, 3, 3, 1])
    let b := after (.writeBaseline .ch0) (ask ready .writeBaseline 2 [192, 0xFFFF])
    (ask base .writeWatchPoint 7 [192, 3, 3, 1]).offers .ch0 .writeWatchPoint (request .writeWatchPoint 7 [192, 3, 3, 1]) ∧
    (ask ready .writeBaseline 2 [192, 9]).offers .ch0 .writeBaseline (request .writeBaseline 2 [192, 9]) ∧
    t.wp 7 192 = { base.wp 7 192 with template := 3, queue := .rq3, tracking := true, centre := 224 } ∧
    statuses .writeWatchPoint ready .writeWatchPoint 2
      [[193, 0, 0, 0], [5, 4, 0, 0], [5, 0, 4, 0], [5, 0, 0, 2], [0, 0, 0, 0], [3, 0, 0, 0]] =
      [some .outOfRange, some .outOfRange, some .outOfRange, some .outOfRange, some .watchPointEnabled, some .accepted] ∧
    statuses .writeWatchPoint busy .writeWatchPoint 2 [[3, 0, 0, 0]] = [some .pairBusy] ∧
    (b.wp 2 192).baseline = some 65535 ∧ (b.wp 2 192).updated = 9 ∧
    ((after (.writeBaseline .ch0) (ask ready .writeBaseline 2 [1, 0])).wp 2 1).baseline = none ∧
    statuses .writeBaseline ready .writeBaseline 2 [[0, 9], [193, 9]] = [some .outOfRange, some .outOfRange] ∧
    statuses .writeBaseline busy .writeBaseline 2 [[1, 9]] = [some .pairBusy] :=
  ⟨⟨rfl, rfl⟩, ⟨rfl, rfl⟩, by decide +kernel⟩

/-- EnableCountsItsChanges: housings 0 and 4 change, the whole range is disabled, and first > last. -/
theorem witness_enable :
    let s := housed (base.setWp 2 1 { base.wp 2 1 with enabled := true })
    (ask s .enableWatchPoints 2 [0, 192]).offers .ch0 .enableWatchPoints (request .enableWatchPoints 2 [0, 192]) ∧
    (ask s .disableWatchPoints 2 [0, 192]).offers .ch0 .disableWatchPoints (request .disableWatchPoints 2 [0, 192]) ∧
    reply .enableWatchPoints s .enableWatchPoints 2 [0, 192] = some (.accepted, false, [3]) ∧
    reply .disableWatchPoints s .disableWatchPoints 2 [0, 192] = some (.accepted, false, [1]) ∧
    reply .enableWatchPoints s .enableWatchPoints 2 [3, 3] = some (.accepted, false, [0]) ∧
    statuses .enableWatchPoints s .enableWatchPoints 2 [[193, 193], [0, 193], [5, 4], [4, 4]] =
      [some .outOfRange, some .outOfRange, some .outOfRange, some .accepted] ∧
    statuses .disableWatchPoints (onLineAt s sweepWork .integrate 2047 1) .disableWatchPoints 2 [[0, 1]] =
      [some .pairBusy] := ⟨⟨rfl, rfl⟩, ⟨rfl, rfl⟩, by decide +kernel⟩

/-- A policy block with its thresholds, normalise and auto-isolate words; the other fields beyond their ends. -/
def policyWords (watch degrade floor normalise auto : Word) : List Word :=
  [watch, degrade, floor, 0xFFFF, normalise, 0, 9, 0, 257, 0xFFFF, auto, 3, 17, 0]

/-- PairPolicyIsReplacedWhole: clamping, a change of normalise, auto-isolate going off with an entry queued, thresholds. -/
theorem witness_policy :
    let entry : Work := ⟨4, .auto, 2, .command 2 .pumpSwap 2⟩
    let s := { isolating (withVerdict ready none (some degraded2) 0 .pending 0) with isolationQueue := [entry] }
    let h := policyWords 1024 2 1 0 0
    let t := after (.writePairPolicy .ch0) (ask s .writePairPolicy 2 h)
    (ask s .writePairPolicy 2 h).offers .ch0 .writePairPolicy (request .writePairPolicy 2 h) ∧
    t.policy 2 = ⟨1024, 2, 1, 32767, false, 1, 8, 1, 256, 65535, false, .rq3, 16, 1⟩ ∧ t.isolationQueue = [] ∧
    (t.verdict 2).status = .notPermitted ∧ (t.wp 2 1).baseline = none ∧ (t.wp 2 1).condition = .unreferenced ∧
    (t.wp 2 0).baseline = some 4096 ∧ (t.wp 2 5).condition = .unobserved ∧
    reply .writePairPolicy s .writePairPolicy 2 h = some (.accepted, true, []) ∧
    statuses .writePairPolicy s .writePairPolicy 2
      [policyWords 1025 2 1 0 0, policyWords 2 2 1 0 0, policyWords 3 2 0 0 0, policyWords 3 2 1 2 0,
       policyWords 3 2 1 1 2, policyWords 3 2 1 1 1] =
      [some .thresholdOrder, some .thresholdOrder, some .thresholdOrder, some .outOfRange, some .outOfRange,
       some .accepted] := ⟨⟨rfl, rfl⟩, by decide +kernel⟩

/-- QuarantineIsMarked: a new mark with a queued entry, the same mark again, a cleared mark, and the ends of the range. -/
theorem witness_quarantine :
    let entry : Work := ⟨4, .auto, 2, .command 2 .pumpSwap 2⟩
    let s := { withVerdict ready none (some degraded2) 0 .pending 0 with isolationQueue := [entry] }
    let t := after (.setQuarantine .ch0) (ask s .setQuarantine 2 [2, 5])
    let u := after (.clearQuarantine .ch0) (ask { t with isolationQueue := [entry] } .clearQuarantine 2 [2])
    (ask s .setQuarantine 2 [2, 5]).offers .ch0 .setQuarantine (request .setQuarantine 2 [2, 5]) ∧
    (ask s .clearQuarantine 2 [2]).offers .ch0 .clearQuarantine (request .clearQuarantine 2 [2]) ∧
    (t.wp 2 2).quarantine = some 4 ∧ (t.wp 2 2).updated = 9 ∧ t.isolationQueue = [] ∧
    (t.verdict 2).status = .quarantined ∧
    t.queues.rq3.records.map (·.body) = [.quarantine 2 2 true 4 (.channel .ch0)] ∧
    (after (.setQuarantine .ch0) (ask t .setQuarantine 2 [2, 4])).queues = t.queues ∧
    (u.wp 2 2).quarantine = none ∧ (u.verdict 2).status = .cancelled ∧ u.queues.rq3.records.length = 2 ∧
    statuses .setQuarantine s .setQuarantine 2 [[0, 1], [1, 0], [192, 1], [193, 1]] =
      [some .outOfRange, some .accepted, some .accepted, some .outOfRange] := ⟨⟨rfl, rfl⟩, ⟨rfl, rfl⟩, by decide +kernel⟩

/-! ### Witnesses: report queues and reads -/

/-- `n` records waiting in RQ0. -/
def filled (n : Nat) : State :=
  { base with queues := { base.queues with rq0 := ⟨List.replicate n ⟨.verdictRaised 2 degraded2, 3⟩, false, some .ch0⟩ } }

/-- PostedRecordJoinsOrOverflows: record 64 and record 65. -/
theorem witness_post :
    let s := (filled 63).post .rq0 (.verdictRaised 2 degraded2)
    let t := s.post .rq0 (.verdictRaised 2 degraded2)
    (filled 63).queues.rq0.records.length < 64 ∧ s.queues.rq0.records.length = 64 ∧ s.queues.rq0.overflow = false ∧
    s.attention .ch0 = true ∧ t.queues.rq0 = { s.queues.rq0 with overflow := true } := by decide +kernel

/-- QueuesAreBoundAndRead: the ends of the ranges, a make-home, a read by an unbound channel, counts 0 and 17. -/
theorem witness_queues :
    let s := { filled 20 with queues := { (filled 20).queues with rq0 := { (filled 20).queues.rq0 with overflow := true } } }
    let t := after (.readQueue .ch0) (ask s .readQueue 0 [0, 17])
    let b := after (.bindQueue .ch0) (ask base .bindQueue 0 [3, 3, 1])
    (ask s .readQueue 0 [0, 17]).offers .ch0 .readQueue (request .readQueue 0 [0, 17]) ∧
    (ask base .bindQueue 0 [3, 3, 1]).offers .ch0 .bindQueue (request .bindQueue 0 [3, 3, 1]) ∧
    t.queues.rq0.records.length = 4 ∧ t.queues.rq0.overflow = false ∧
    t.answers.map (fun a => (a.reply.clamped, a.reply.overflow, a.reply.requested, a.reply.data.take 2)) =
      [(true, true, 162, [16, 4])] ∧
    (after (.readQueue .ch0) (ask s .readQueue 0 [0, 0])).queues.rq0.records.length = 19 ∧
    statuses .readQueue s .readQueue 0 [[4, 1], [1, 1], [3, 1]] = [some .outOfRange, some .notBound, some .accepted] ∧
    b.queues.rq3.binding = some .ch2 ∧ b.homes.ch2 = .rq3 ∧
    reply .bindQueue base .bindQueue 0 [3, 3, 1] = some (.accepted, false, [0]) ∧
    statuses .bindQueue base .bindQueue 0 [[4, 0, 0], [0, 4, 0], [0, 0, 1], [0, 0, 0], [0, 1, 2]] =
      [some .outOfRange, some .outOfRange, some .outOfRange, some .accepted, some .outOfRange] :=
  ⟨⟨rfl, rfl⟩, ⟨rfl, rfl⟩, by decide +kernel⟩

/-- PairReadsAnswerOrDefer: out of range, deferred in EVALUATE, answered, counts 0 and 17. -/
theorem witness_pair_reads :
    let s := evaluatingAt .segments []
    let few := { ready with straps := { ready.straps with pairsFitted := 1 } }
    let count (l : List Word) : Option (Bool × List Word) :=
      (reply .readWatchPoints ready .readWatchPoints 2 l).map fun r => (r.2.1, r.2.2.take 1)
    (ask s .readWatchPoints 2 [0, 1]).offers .ch0 .readWatchPoints (request .readWatchPoints 2 [0, 1]) ∧
    (ask s .readVerdict 2 []).offers .ch0 .readVerdict (request .readVerdict 2 []) ∧
    (after (.readWatchPoints .ch0) (ask s .readWatchPoints 2 [0, 1])).deferred = [request .readWatchPoints 2 [0, 1]] ∧
    (after (.readVerdict .ch0) (ask s .readVerdict 2 [])).deferred = [request .readVerdict 2 []] ∧
    statuses .readWatchPoints s .readWatchPoints 1 [[0, 1], [193, 1]] = [some .accepted, some .outOfRange] ∧
    count [192, 16] = some (false, [1]) ∧ count [0, 17] = some (true, [16]) ∧ count [0, 0] = some (true, [1]) ∧
    statuses .readVerdict few .readVerdict 2 [[]] = [some .outOfRange] ∧
    statuses .readVerdict few .readVerdict 1 [[]] = [some .accepted] := ⟨⟨rfl, rfl⟩, ⟨rfl, rfl⟩, by decide +kernel⟩

/-- ReadsReturnWhatIsHeld: one of each. -/
theorem witness_reads :
    let s := { onLineAt ready sweepWork .integrate 2047 1 with alarms := ⟨0x84, false, true⟩ }
    (ask s .readAlarms 0 []).offers .ch0 .readAlarms (request .readAlarms 0 []) ∧
    (ask s .readLineState 0 []).offers .ch0 .readLineState (request .readLineState 0 []) ∧
    (ask s .readTime 0 []).offers .ch0 .readTime (request .readTime 0 []) ∧
    (ask s .readHousing 0 [0, 2]).offers .ch0 .readHousing (request .readHousing 0 [0, 2]) ∧
    (ask s .readClaims 0 []).offers .ch0 .readClaims (request .readClaims 0 []) ∧
    reply .readAlarms s .readAlarms 0 [] = some (.accepted, false, [0x0284]) ∧
    reply .readLineState s .readLineState 0 [] = some (.accepted, false, [3, 1, 2, 0, 0, 2]) ∧
    reply .readTime { s with epoch := 0x00020003 } .readTime 0 [] = some (.accepted, false, [2, 3]) ∧
    reply .readHousing s .readHousing 0 [0, 2] = some (.accepted, false, [2, 128, 0, 64, 0x180, 11, 700]) ∧
    statuses .readHousing s .readHousing 0 [[192, 1], [193, 1]] = [some .accepted, some .outOfRange] ∧
    reply .readClaims { s with tablesClaim := ⟨some .ch2, 7, 0⟩ } .readClaims 0 [] =
      some (.accepted, false, [1, 0, 1, 5, 3, 0, 0, 0]) :=
  ⟨⟨rfl, rfl⟩, ⟨rfl, rfl⟩, ⟨rfl, rfl⟩, ⟨rfl, rfl⟩, ⟨rfl, rfl⟩, by decide +kernel⟩

/-! ### Witnesses: line requests -/

/-- LineWorkIsEnqueuedWithFreeTag: the ends of the ranges, a full queue, tags 255 and 0 held, a BASELINE sweep without
TABLES. -/
theorem witness_enqueue :
    let s := { base with tagCounter := 255, workQueue := [⟨255, .channel .ch1, 0, .sweep .monitor 1⟩] }
    let t := after (.startSweep .ch0) (ask s .startSweep 7 [1, 1025])
    let full := { s with workQueue := List.replicate 16 sweepWork }
    let few := { s with straps := { s.straps with pairsFitted := 1 } }
    (ask s .startSweep 7 [1, 1025]).offers .ch0 .startSweep (request .startSweep 7 [1, 1025]) ∧
    (ask s .sendCommand 2 [192, 4, 4]).offers .ch0 .sendCommand (request .sendCommand 2 [192, 4, 4]) ∧
    t.workQueue.getLast? = some ⟨0, .channel .ch0, 7, .sweep .baseline 1024⟩ ∧ t.tagCounter = 1 ∧
    reply .startSweep s .startSweep 7 [1, 1025] = some (.accepted, true, [0]) ∧
    reply .startSweep s .startSweep 7 [0, 1024] = some (.accepted, false, [0]) ∧
    statuses .startSweep s .startSweep 0 [[2, 1], [1, 0]] = [some .outOfRange, some .accepted] ∧
    statuses .startSweep full .startSweep 0 [[0, 1]] = [some .queueFull] ∧
    statuses .startSweep few .startSweep 2 [[0, 1]] = [some .outOfRange] ∧
    statuses .startSweep { s with tablesClaim := ⟨none, 0, 0⟩ } .startSweep 0 [[1, 1], [0, 1]] =
      [some .notClaimed, some .accepted] ∧
    statuses .sendCommand s .sendCommand 2 [[193, 1, 1], [192, 0, 1], [192, 5, 1], [0, 1, 1]] =
      [some .outOfRange, some .outOfRange, some .outOfRange, some .accepted] ∧
    reply .sendCommand s .sendCommand 2 [192, 4, 5] = some (.accepted, true, [0]) ∧
    statuses .sendCommand full .sendCommand 2 [[1, 1, 1]] = [some .queueFull] :=
  ⟨⟨rfl, rfl⟩, ⟨rfl, rfl⟩, by decide +kernel⟩

/-- QueuedWorkIsCancelled: tags 255, 256 and one that no work holds; own work, another's without LINE, automatic work. -/
theorem witness_cancel_queued :
    let auto : Work := ⟨4, .auto, 2, .command 2 .pumpSwap 2⟩
    let other : Work := ⟨255, .channel .ch1, 0, .sweep .monitor 1⟩
    let s := { withVerdict ready none (some degraded2) 0 .pending 0 with
      workQueue := [sweepWork, other], isolationQueue := [auto] }
    let no := { s with lineClaim := ⟨none, 0, 0⟩ }
    let t := after (.cancelWork .ch0) (ask s .cancelWork 0 [4])
    let u := after (.cancelWork .ch0) (ask s .cancelWork 0 [255])
    (ask s .cancelWork 0 [255]).offers .ch0 .cancelWork (request .cancelWork 0 [255]) ∧ s.heldTags.Nodup ∧
    t.isolationQueue = [] ∧ (t.verdict 2).status = .cancelled ∧ t.workQueue = [sweepWork, other] ∧
    t.queues.rq3.records.map (·.body) = [.commandDone 4 .auto 2 2 .pumpSwap .cancelled 0 none none] ∧
    u.workQueue = [sweepWork] ∧ u.queues.rq1.records.map (·.body) = [.sweepDone 255 0 .monitor .cancelled 0 0 0] ∧
    statuses .cancelWork no .cancelWork 0 [[1], [255], [4], [256], [254]] =
      [some .accepted, some .notClaimed, some .notClaimed, some .outOfRange, some .noSuchWork] :=
  ⟨⟨rfl, rfl⟩, by decide +kernel⟩

/-- CurrentWorkIsCancelled: in SELECT, in EVALUATE, a swap whose frame was sent, without authority. -/
theorem witness_cancel_current :
    let select := { ready with current := some ⟨sweepWork, .select, 2047⟩, requested := some 2, settleTimer := some ⟨0, 50⟩ }
    let swap := commandAt swapWork .busyWait .readySearch 70000 32
    let other := { commandAt { swapWork with origin := .channel .ch1 } .busyWait .readySearch 70000 32 with
      lineClaim := ⟨none, 0, 0⟩ }
    let t := after (.cancelWork .ch0) (ask swap .cancelWork 0 [1])
    let u := after (.cancelWork .ch0) (ask select .cancelWork 0 [1])
    (ask swap .cancelWork 0 [1]).offers .ch0 .cancelWork (request .cancelWork 0 [1]) ∧ swapWork.housing ≤ 192 ∧
    t.current = none ∧ (t.wp 2 2).pump = .unknown ∧ t.position = some 2 ∧ t.allocation = [] ∧ t.cmu = .reset ∧
    t.queues.rq0.records.map (·.body) = [.commandDone 1 (.channel .ch0) 2 2 .pumpSwap .cancelled 1 none none] ∧
    u.position = none ∧ u.current = none ∧ u.settleTimer = none ∧
    statuses .cancelWork (evaluatingAt .streak []) .cancelWork 0 [[1], [2]] = [some .tooLate, some .noSuchWork] ∧
    statuses .cancelWork other .cancelWork 0 [[1]] = [some .notClaimed] := ⟨⟨rfl, rfl⟩, by decide +kernel⟩

/-- ResetLineReturnsToKnownStart: a current sweep in EVALUATE, an entry, a confirmed verdict, a deferred read; a swap before
and after its first frame; no work current. -/
theorem witness_reset_line :
    let s := { withVerdict (evaluatingAt .streak []) none (some degraded2) 3 .pending 0 with
      workQueue := [{ sweepWork with tag := 2 }], deferred := [request .readVerdict 2 []], tagCounter := 3 }
    let t := after (.resetLine .ch0) (ask s .resetLine 0 [])
    let swapped (st : LineState) (phase : CommandPhase) : PumpState :=
      let u := commandAt swapWork st phase 70000 31
      ((after (.resetLine .ch0) (ask (u.setWp 2 2 { u.wp 2 2 with pump := .primary }) .resetLine 0 [])).wp 2 2).pump
    (ask s .resetLine 0 []).offers .ch0 .resetLine (request .resetLine 0 []) ∧ sweepWork.housing ≤ 192 ∧
    swapped .commandTx .frame = .primary ∧ swapped .busyWait .roundTrip = .unknown ∧
    (after (.resetLine .ch0) (ask ready .resetLine 0 [])).cmu = ready.cmu ∧
    t.current = none ∧ t.workQueue = [] ∧ t.position = none ∧ t.deferred = [] ∧ t.verdict 2 = State.reset.verdict 2 ∧
    t.tagCounter = 3 ∧ t.lineClaim = s.lineClaim ∧ t.answers.length = 2 ∧
    t.queues.rq0.records.map (·.body) = [.sweepDone 1 2 .monitor .cancelled 0 0 0, .sweepDone 2 2 .monitor .cancelled 0 0 0] ∧
    t.queues.rq3.records.map (·.body) = [.verdictCleared 2 degraded2 .lineReset] ∧
    statuses .resetLine { s with lineClaim := ⟨none, 0, 0⟩ } .resetLine 0 [[]] = [some .notClaimed] :=
  ⟨⟨rfl, rfl⟩, by decide +kernel⟩

/-! ### Witnesses: taking work, selection, faults of the line -/

/-- TakeWorkPrefersIsolation: both queues, the Work Queue alone, none. -/
theorem witness_take_work :
    let auto : Work := ⟨4, .auto, 2, .command 2 .pumpSwap 2⟩
    let s := { withVerdict ready none (some degraded2) 0 .pending 0 with
      workQueue := [sweepWork], isolationQueue := [auto], clipCount := 7 }
    let t := after (.takeWork false) s
    let u := after (.takeWork false) { s with isolationQueue := [] }
    s.resetAsserted = false ∧ s.current = none ∧ t.current = some ⟨auto, .startChecks, 2047⟩ ∧
    (t.verdict 2).status = .inFlight ∧ t.workQueue = [sweepWork] ∧ t.clipCount = 7 ∧ t.cmu.phase = .checking ∧
    u.current = some ⟨sweepWork, .startChecks, 2047⟩ ∧ u.workQueue = [] ∧ u.clipCount = 0 ∧ u.cmu.phase = .free ∧
    after (.takeWork true) s = after (.takeWork true) t ∧ after (.takeWork true) base = base := by decide +kernel

/-- SweepStartChecksAllocate: 8192 cells pass and 8194 do not; the reference lost; segments packed from cell 0. -/
theorem witness_sweep_start :
    let s := { ready with current := some ⟨sweepWork, .startChecks, 2047⟩ }
    let t := after (.takeWork true) s
    let lost := s.setWp 2 0 { s.wp 2 0 with enabled := false }
    t.allocation = [⟨0, 16, 64, 0⟩, ⟨1, 16, 700, 16⟩, ⟨2, 16, 1290, 32⟩] ∧
    t.current = some ⟨sweepWork, .select, 2047⟩ ∧ s.cellSum 2 = 48 ∧
    (after (.takeWork true) lost).queues.rq0.records.map (·.body) = [.sweepDone 1 2 .monitor .referenceLost 0 0 0] := by
  decide +kernel

/-- SweepStartChecksAllocate: with every watch point at 64 cells, 128 of them fit exactly and 129 do not. -/
theorem witness_cell_budget :
    let s (n : Nat) : State :=
      { base with
        templates := [(1, ⟨64, 16⟩)], current := some ⟨sweepWork, .startChecks, 2047⟩
        watchPoints := (List.range n).map fun i => (wpKey 2 i, { wpDefault (wpKey 2 i) with enabled := true }) }
    (after (.takeWork true) (s 128)).current.map (·.state) = some .select ∧
    (after (.takeWork true) (s 129)).queues.rq0.records.map (·.body) = [.sweepDone 1 2 .monitor .cellBudget 0 0 0] := by
  decide +kernel

/-- CommandStartChecksCapture: captured, a level at and below the minimum, a housing that cannot swap. -/
theorem witness_command_start :
    let s := { ready with current := some ⟨swapWork, .startChecks, 2047⟩, cmu := { CommandUnit.reset with phase := .checking } }
    let level (n : Nat) : State := s.setWp 2 2 { s.wp 2 2 with level := some n }
    let unable := s.setHousing 2 { s.housing 2 with swapCapable := false }
    (s.policy 2).levelMin = 16 ∧ (after (.takeWork true) s).cmu.captured = some captured ∧
    (after (.takeWork true) s).allocation = [⟨2, 16, 1290, 0⟩] ∧
    (after (.takeWork true) (level 16)).current.map (·.state) = some .select ∧
    (after (.takeWork true) (level 15)).queues.rq0.records.map (·.body) =
      [.commandDone 1 (.channel .ch0) 2 2 .pumpSwap .notVisible 0 none none] ∧
    (after (.takeWork true) unable).queues.rq0.records.map (·.body) =
      [.commandDone 1 (.channel .ch0) 2 2 .pumpSwap .unsupported 0 none none] := by decide +kernel

/-- SelectionLeadsToTheLine: known position, unknown position, switch already there, loss of signal at entry, a command. -/
theorem witness_selection :
    let c : Current := ⟨sweepWork, .startChecks, 2047⟩
    let s := { ready with current := some c, position := some 2 }
    let lost := { s with losInput := true }
    let m := (commandAt markWork .startChecks .checking 0 0)
    (s.selection c).current = some ⟨sweepWork, .settle, 2047⟩ ∧ (s.selection c).chipTimer = some ⟨0, 0⟩ ∧
    (s.selection c).generator.stages = 2047 ∧
    ({ s with position := none }.selection c).settleTimer = some ⟨9, 50⟩ ∧
    ({ s with position := some 1, confirmInput := some 2 }.selection c).position = some 2 ∧
    (lost.selection c).alarms.receiverLos = true ∧ (lost.selection c).current = none ∧
    (m.selection ⟨markWork, .startChecks, 2047⟩).cmu.attempt = 2 := by decide +kernel

/-- ConfirmInputAndLineFaults: the code and another, on the line and off, the settle limit and one short of it, the level
of loss of signal. -/
theorem witness_confirm :
    let select := { ready with
      current := some ⟨sweepWork, .select, 2047⟩, requested := some 2, settleTimer := some ⟨0, 9⟩, position := none }
    let late := { select with settleTimer := some ⟨0, 10⟩ }
    let line := onLineAt ready sweepWork .integrate 2047 1
    let idle := { ready with requested := some 2, position := some 2 }
    (after (.selectorConfirm 2) select).position = some 2 ∧
    (after (.selectorConfirm 2) select).current = some ⟨sweepWork, .settle, 2047⟩ ∧
    after (.selectorConfirm 1) select = { select with confirmInput := some 1 } ∧
    (after (.lossOfPosition none) line).alarms.selectorFault = true ∧ (after (.lossOfPosition none) line).current = none ∧
    (after (.lossOfPosition (some 1)) idle).position = none ∧
    after (.selectorConfirm 1) ready = { ready with confirmInput := some 1 } ∧
    (after .selectorSettleExpiry select).queues.rq0.records.map (·.body) =
      [.sweepDone 1 2 .monitor .selectorFault 0 0 0] ∧ after .selectorSettleExpiry late = late ∧
    (after (.receiverLos true) line).queues.rq0.records.map (·.body) = [.sweepDone 1 2 .monitor .receiverLos 0 0 0] ∧
    after (.receiverLos true) idle = { idle with losInput := true } ∧
    after (.receiverLos false) line = line := by decide +kernel

/-- EndingPostsOneRecordAndRests, PumpStateFollowsOutcome: outcomes of a swap and of a mark. -/
theorem witness_command_ends :
    let c : Current := ⟨swapWork, .responseRx, 2047⟩
    let s := commandAt swapWork .responseRx .data 70000 32
    let pump (o : WorkOutcome) (st : LineState) (w : Option Word) : PumpState :=
      ((s.commandEnds { c with state := st } 2 .pumpSwap o w none).wp 2 2).pump
    let auto := isolating (withVerdict ready none (some degraded2) 0 .inFlight 0)
    (s.commandEnds c 2 .pumpSwap .done (some 0x48D2) none).lineRests ∧
    pump .done .responseRx (some 0x48D2) = .secondary ∧ pump .refusedByRepeater .responseRx (some 0x4952) = .primary ∧
    pump .mismatch .responseRx (some 0x48D2) = .unknown ∧ pump .selectorFault .select none = .unknown ∧
    ((s.commandEnds c 2 .mark .done (some 0x28D2) none).wp 2 2).pump = .unknown ∧
    ((auto.autoOutcome 2 2 .done (some 0x48D2)).verdict 2).status = .swapped ∧
    ((auto.autoOutcome 2 2 .done (some 0x4852)).wp 2 2).quarantine = some 2 ∧
    (let marked := auto.setWp 2 2 { auto.wp 2 2 with quarantine := some 2 }
     marked.autoOutcome 2 2 .mismatch none = marked.setStatus 2 .quarantined) ∧
    ((auto.autoOutcome 2 2 .noResponse none).verdict 2).status = .quarantined ∧
    ((auto.autoOutcome 2 2 .cancelled none).verdict 2).status = .cancelled :=
  ⟨⟨rfl, rfl, rfl, rfl, rfl, rfl, rfl⟩, by decide +kernel⟩

/-! ### Witnesses: period ends and strobes -/

/-- PeriodEndsMoveTheSweep: each end at its instant and one instant early; the last with and without segments. -/
theorem witness_periods :
    let two : Work := { sweepWork with kind := .sweep .monitor 2 }
    let settle := onLineAt ready two .settle 2047 0
    let mid := onLineAt ready two .integrate 4094 1
    let last := { onLineAt ready two .integrate 6141 2 with allocation := [⟨0, 16, 64, 0⟩], clipCount := 33 }
    let early := onLineAt ready two .integrate 6140 2
    let done := after .integrateComplete last
    (after .settlePeriodEnd settle).current.map (·.state) = some .integrate ∧
    (after .settlePeriodEnd settle).chipTimer = some ⟨2047, 1⟩ ∧
    (after .integratePeriodEnd mid).chipTimer = some ⟨4094, 2⟩ ∧ after .integrateComplete mid = mid ∧
    after .integratePeriodEnd last = last ∧ done.current.map (·.state) = some .evaluate ∧ done.chipTimer = none ∧
    done.evaluation.map (·.degraded) = some true ∧ done.evaluation.map (·.stage) = some .segments ∧
    (after .integrateComplete { last with allocation := [] }).evaluation.map (·.stage) = some .finished ∧
    (after .integrateComplete { last with allocation := [], clipCount := 32 }).evaluation.map (·.stage) = some .streak ∧
    after .integrateComplete early = early ∧
    after .settlePeriodEnd (onLineAt ready two .settle 2046 0) = onLineAt ready two .settle 2046 0 := by decide +kernel

/-- A sweep in INTEGRATE with one segment of 4 cells at centre lag 32, at instant 2047. -/
def integrating : State :=
  { onLineAt ready sweepWork .integrate 2047 1 with allocation := [⟨0, 4, 32, 0⟩], chipHistory := [(2015, false)] }

/-- StrobeAccumulatesInIntegrate: lags 30 to 33 ask for chips 2017, 2016, 2015 and 2014; both clipped values and the
largest count. -/
theorem witness_strobe :
    let t := after (.sampleStrobe 2047) integrating
    let marked := { integrating with cells := [(2, ⟨2147483647, true⟩)], clipCount := 65535 }
    let u := after (.sampleStrobe 0x800) marked
    integrating.runningIn .integrate ⟨sweepWork, .integrate, 2047⟩ ⟨2047, 1⟩ ∧
    (integrating.allocation.flatMap Segment.cells).Nodup ∧
    t.cells = [(0, ⟨2047, false⟩), (1, ⟨2047, false⟩), (2, ⟨-2047, false⟩), (3, ⟨2047, false⟩)] ∧ t.clipCount = 1 ∧
    t.chipTimer = some ⟨2048, 1⟩ ∧ t.generator.stages = 0x7FE ∧
    Memory.read chipDefault t.chipHistory 0 = true ∧
    Memory.read cellDefault u.cells 2 = ⟨2147483647, true⟩ ∧ Memory.read cellDefault u.cells 0 = ⟨-2048, false⟩ ∧
    u.clipCount = 65535 ∧ (after (.sampleStrobe 2046) integrating).clipCount = 0 := by
  refine ⟨⟨rfl, rfl, rfl, rfl⟩, ?_⟩
  decide +kernel

/-- StrobeOutsideIntegrate: a dropped sample, no chip timer, the last instant of an interval and the one before. -/
theorem witness_strobe_outside :
    let settle := onLineAt ready sweepWork .settle 5 0
    let at' (n : Nat) : State := { commandAt markWork .responseWait .startSearch n 32 with cells := [(1, ⟨7, false⟩)] }
    let close := 33 * 2047 + 1290 + 3 * (4 * 2047)
    let t := after (.sampleStrobe 0) (at' (close - 1))
    let u := after (.sampleStrobe 2047) (at' (close - 2))
    settle.strobeWaits ⟨sweepWork, .settle, 2047⟩ ⟨5, 0⟩ = false ∧
    (after (.sampleStrobe 9) settle).chipTimer = some ⟨6, 0⟩ ∧ (after (.sampleStrobe 9) settle).cells = [] ∧
    after (.sampleStrobe 9) ready = ready ∧
    t.intervals = [⟨3, [0, 7, 0, 0]⟩] ∧ t.cells = [] ∧ t.cmu.interval = 4 ∧
    u.intervals = [] ∧ u.cmu.interval = 3 ∧ u.clipCount = 0 ∧ u.cells ≠ [] := by decide +kernel

/-- The first chips of m = 11 from all ones are +1, and the taps 11 and 9 give the next. -/
theorem test_first_chips :
    let g : Generator := { m := 11, k := 0, stages := BitVec.ofNat 15 2047 }
    (Nat.repeat Generator.shift 10 g).chip = true ∧ g.shift.stage 1 = false ∧
    (Nat.repeat Generator.shift 11 g).chip = false := by decide +kernel

/-! ### Witnesses: the evaluation -/

/-- The hypotheses of the evaluation's statements, at any stage, with any segments left and any confirmed verdict. -/
theorem witness_evaluating (st : EvalStage) (l : List Segment) (v : Verdict) :
    let s := withVerdict (evaluatingAt st l) (some v) (some v) 3 .swapped 1
    s.evaluatingAt st ⟨sweepWork, .evaluate, 2047⟩ ⟨l, ready.policy 2, 100, 0, 0, false, false, st⟩ ∧
    (s.verdict 2).confirmed = some v := ⟨⟨rfl, rfl, rfl, rfl, rfl⟩, rfl⟩

/-- ReferenceSegmentIsWritten: a level of the reference floor, 32, and one below it. -/
theorem witness_reference :
    let g : Segment := ⟨0, 4, 64, 0⟩
    let s (v : Int) : State := { evaluatingAt .segments [g, ⟨2, 4, 1290, 4⟩] with cells := [(3, ⟨v, true⟩)] }
    let t := after .watchPointAction (s 4094)
    let lost := after .watchPointAction (s 4093)
    (s 4094).evaluatingAt .segments ⟨sweepWork, .evaluate, 2047⟩ ((s 4094).evaluation.getD ⟨[], ready.policy 2, 0, 0, 0, false, false, .finished⟩) ∧
    (t.wp 2 0).level = some 32 ∧ (t.wp 2 0).norm = some 4096 ∧ (t.wp 2 0).offset = 3 ∧ (t.wp 2 0).edge = true ∧
    (t.wp 2 0).saturated = true ∧ t.evaluation.map (·.refLevel) = some 32 ∧ t.evaluation.map (·.stage) = some .segments ∧
    (after .watchPointAction { evaluatingAt .segments [g] with cells := [(3, ⟨4094, true⟩)] }).evaluation.map (·.stage) =
      some .streak ∧
    lost.evaluation.map (fun e => (e.refLost, e.remaining, e.stage)) = some (true, [], .finished) ∧
    (lost.wp 2 0).level = some 31 := by
  refine ⟨⟨rfl, rfl, rfl, rfl, rfl⟩, ?_⟩
  decide +kernel

/-- HousingSegmentIsWritten: with baseline 4096 and reference level 100, the conditions at the thresholds 900 and 700, a
level below the minimum, and the record of a change. -/
theorem witness_housing_segment :
    let s (level : Int) : State :=
      { evaluatingAt .segments [⟨2, 4, 1290, 4⟩] with cells := [(6, ⟨level * 2047 / 16 + 1, false⟩)] }
    let outcome (level : Int) : Option Nat × Option Nat × Condition :=
      let w := (after .watchPointAction (s level)).wp 2 2
      (w.level, w.deviation, w.condition)
    let t := after .watchPointAction (s 87)
    outcome 88 = (some 88, some 901, .normal) ∧ outcome 87 = (some 87, some 890, .watch) ∧
    outcome 69 = (some 69, some 706, .watch) ∧ outcome 68 = (some 68, some 696, .low) ∧
    outcome 16 = (some 16, some 163, .absent) ∧ outcome 15 = (some 15, some 153, .absent) ∧
    t.queues.rq3.records.map (·.body) = [.conditionChange 2 2 .normal .watch 87 (some 890)] ∧
    (after .watchPointAction (s 88)).queues = ready.queues ∧
    t.evaluation.map (fun e => (e.evaluated, e.stage)) = some (1, .streak) := by decide +kernel

/-- HousingSegmentIsWritten: a baseline captured at the least level, none below it, and a saturated segment held. -/
theorem witness_baseline_capture :
    let s (level : Int) (marked : Bool) : State :=
      { evaluatingAt .segments [⟨2, 4, 1290, 4⟩] with
        cells := [(6, ⟨level * 2047 / 16 + 1, marked⟩)]
        current := some ⟨{ sweepWork with kind := .sweep .baseline 1 }, .evaluate, 2047⟩ }
    let w (level : Int) (marked : Bool) : WatchPoint := (after .watchPointAction (s level marked)).wp 2 2
    (w 16 false).baseline = some 655 ∧ (w 16 false).condition = .normal ∧ (w 15 false).baseline = none ∧
    (w 15 false).condition = .absent ∧ (w 50 true).baseline = some 4096 ∧ (w 50 true).condition = .normal ∧
    (after .watchPointAction (s 16 false)).evaluation.map (·.stage) = some .rebaseline := by decide +kernel

/-- TrackingMovesTheCentreLag: a NORMAL peak at offset 0 moves the window, a LOW one does not. -/
theorem witness_tracking :
    let s (level : Int) : State :=
      { (evaluatingAt .segments [⟨2, 4, 1290, 4⟩]).setWp 2 2 { ready.wp 2 2 with tracking := true } with
        cells := [(4, ⟨level * 2047 / 16 + 1, false⟩)] }
    ((after .watchPointAction (s 100)).wp 2 2).centre = 1286 ∧ ((after .watchPointAction (s 68)).wp 2 2).centre = 1290 := by
  decide +kernel

/-! ### Witnesses: the Localiser -/

/-- ConfirmationReplacesVerdict: the streak to its limit, a confirmed candidate, the four steps of a confirmation. -/
theorem witness_confirmation :
    let low := ready.setWp 2 1 { ready.wp 2 1 with condition := .low, deviation := some 500 }
    let s (v : State) (st : EvalStage) : State := { v with
      current := (evaluatingAt st []).current, evaluation := (evaluatingAt st []).evaluation }
    let found : Verdict := ⟨.amplifierDegraded, 1⟩
    let stage (t : State) : Option EvalStage := t.evaluation.map (·.stage)
    let three := after .streakUpdate (s (withVerdict low (some found) none 2 .notApplicable 0) .streak)
    let replaced := after .verdictReplacement (s (withVerdict low (some found) (some degraded2) 3 .quarantined 1) .replacement)
    (three.verdict 2).streak = 3 ∧ stage three = some .replacement ∧
    stage (after .streakUpdate (s (withVerdict low (some found) none 1 .notApplicable 0) .streak)) = some .finished ∧
    stage (after .streakUpdate (s (withVerdict low (some found) (some degraded2) 2 .swapped 0) .streak)) = some .clearing ∧
    stage (after .streakUpdate (s (withVerdict low none (some degraded2) 2 .swapped 0) .streak)) = some .escalation ∧
    ((after .streakUpdate (s (withVerdict low (some found) (some found) 15 .swapped 0) .streak)).verdict 2).streak = 15 ∧
    (replaced.verdict 2).confirmed = some found ∧ stage replaced = some .raising ∧
    ((after .verdictReplacement (s (withVerdict low none (some degraded2) 3 .swapped 1) .replacement)).verdict 2) =
      ⟨none, 3, none, 0, .notApplicable, 0⟩ ∧
    (let raised := after .verdictRaise replaced
     (raised.verdict 2).raised = 9 ∧ raised.alarms.verdict = 4 ∧ stage raised = some .isolation ∧
     raised.queues.rq3.records.map (·.body) = [.verdictRaised 2 found]) ∧
    (let cleared := after .verdictClearing (s (withVerdict low (some found) (some degraded2) 3 .swapped 1) .clearing)
     cleared.queues.rq3.records.map (·.body) = [.verdictCleared 2 degraded2 .replaced]) := by decide +kernel

/-- IsolationStartsAndEscalates: a swap, a quarantine for SECONDARY, not permitted, a kind without isolation; the count one
below C and at C, with the mark new and standing. -/
theorem witness_isolation :
    let s (v : State) (st : EvalStage) (x : Verdict) (n : Nat) : State :=
      let v := withVerdict v (some x) (some x) 3 .swapped n
      { v with current := (evaluatingAt st []).current, tagCounter := 1
               evaluation := (evaluatingAt st []).evaluation.map fun e => { e with policy := v.policy 2 } }
    let on := isolating ready
    let secondary := on.setWp 2 2 { on.wp 2 2 with pump := .secondary }
    let t := after .isolationStart (s on .isolation degraded2 0)
    let q := after .isolationStart (s secondary .isolation degraded2 0)
    let status (t : State) : IsolationStatus := (t.verdict 2).status
    t.isolationQueue = [⟨2, .auto, 2, .command 2 .pumpSwap 2⟩] ∧ status t = .pending ∧ t.tagCounter = 3 ∧
    status q = .quarantined ∧ (q.wp 2 2).quarantine = some 2 ∧
    q.queues.rq3.records.map (·.body) = [.quarantine 2 2 true 2 .auto] ∧
    ((after .isolationStart (s on .isolation ⟨.loopbackFault, 1⟩ 0)).wp 2 1).quarantine = some 0 ∧
    status (after .isolationStart (s ready .isolation degraded2 0)) = .notPermitted ∧
    status (after .isolationStart (s on .isolation ⟨.sectionOpen, 1⟩ 0)) = .notApplicable ∧
    status (after .postSwapEscalation (s on .escalation degraded2 1)) = .swapped ∧
    (let t := after .postSwapEscalation (s on .escalation degraded2 2)
     status t = .quarantined ∧ t.queues.rq3.records.map (·.body) = [.quarantine 2 2 true 2 .auto]) ∧
    (let t := after .postSwapEscalation
       (s (on.setWp 2 2 { on.wp 2 2 with quarantine := some 2 }) .escalation degraded2 2)
     status t = .quarantined ∧ t.queues = on.queues) ∧
    status (after .postSwapEscalation (s ready .escalation degraded2 2)) = .failed := by decide +kernel

/-- EvaluationEndsInOrder: a rebaselined verdict; the end of a sweep with a deferred read. -/
theorem witness_evaluation_end :
    let s := withVerdict (evaluatingAt .rebaseline []) none (some degraded2) 3 .swapped 0
    let t := after .baselineVerdictClearing s
    let u := after .evaluationDone { t with deferred := [request .readVerdict 2 []] }
    t.verdict 2 = State.reset.verdict 2 ∧
    t.queues.rq3.records.map (·.body) = [.verdictCleared 2 degraded2 .rebaselined] ∧
    t.evaluation.map (·.stage) = some .finished ∧ u.current = none ∧ u.deferred = [] ∧ u.answers.length = 1 ∧
    u.queues.rq0.records.map (·.body) = [.sweepDone 1 2 .monitor .completed 0 0 0] := by decide +kernel

/-! ### Witnesses: the Command Unit -/

/-- The hypotheses of the Command Unit's statements, in any state and phase. -/
theorem witness_commanding (st : LineState) (phase : CommandPhase) (index ends : Nat) :
    let s := commandAt markWork st phase index ends
    s.runningIn st ⟨markWork, st, 2047⟩ ⟨index, ends⟩ ∧ s.cmu.captured = some captured ∧ s.cmu.phase = phase ∧
    s.allocation = [⟨2, 4, 1290, 0⟩] := ⟨⟨rfl, rfl, rfl, rfl⟩, rfl, rfl, rfl⟩

/-- FrameAndRoundTripAreTimed: period ends 31 and 32, the first instant of interval 1, and the outputs. -/
theorem witness_frame_timing :
    let s (n : Nat) : State := commandAt markWork .commandTx .frame ((n + 1) * 2047) n
    let first := 33 * 2047 + 1290
    let trip (n : Nat) : State := { commandAt markWork .responseWait .roundTrip n 32 with cells := [(1, ⟨7, true⟩)] }
    (after .frameBitPeriodEnd (s 30)).cmu.bit = 2 ∧ after .frameEnd (s 30) = s 30 ∧
    after .frameBitPeriodEnd (s 31) = s 31 ∧ (after .frameEnd (s 31)).cmu.phase = .roundTrip ∧
    (after .frameEnd (s 31)).current.map (·.state) = some .responseWait ∧
    (after .frameEnd (commandAt swapWork .commandTx .frame 65504 31)).current.map (·.state) = some .busyWait ∧
    ((s 30).modulator = some true ∧ (s 30).tone = true ∧ (trip first).modulator = some true ∧
      (trip first).tone = false ∧ ready.modulator = none ∧ (evaluatingAt .streak []).modulator = none) ∧
    after .roundTripEnd (trip (first - 1)) = trip (first - 1) ∧
    (after .roundTripEnd (trip first)).cmu.phase = .startSearch ∧ (after .roundTripEnd (trip first)).cmu.interval = 1 ∧
    (after .roundTripEnd (trip first)).cells = [] := by decide +kernel

/-- IntervalsAreReadInPhase: ready at interval 2 but not 1, the busy limit, three and four lit intervals, the last data bit,
a retry and the last attempt. -/
theorem witness_intervals :
    let s (phase : CommandPhase) (run : Bool) (count : Nat) (bits : List Bool) (i : Interval) : State :=
      let u := commandAt swapWork (if phase = .data then .responseRx else .busyWait) phase 90000 32
      { u with intervals := [i], cmu := { u.cmu with litRun := run, startCount := count, collector := bits } }
    let next (t : State) : State := after .intervalClassified t
    let bits : List Bool := (List.range 15).map fun i => (0x48D2 : Word).getLsbD (15 - i)
    (next (s .readySearch true 0 [] (interval 2 true))).cmu.phase = .startSearch ∧
    (next (s .readySearch true 0 [] (interval 1 true))).cmu.phase = .readySearch ∧
    (next (s .readySearch false 0 [] (interval 59 false))).cmu.litRun = false ∧
    (next (s .readySearch false 0 [] (interval 60 false))).queues.rq0.records.map (·.body) =
      [.commandDone 1 (.channel .ch0) 2 2 .pumpSwap .busyTimeout 1 none none] ∧
    after .busyTimeout (s .readySearch false 0 [] (interval 60 true)) =
      next (s .readySearch false 0 [] (interval 60 true)) ∧
    after .busyTimeout (s .readySearch true 0 [] (interval 60 true)) = s .readySearch true 0 [] (interval 60 true) ∧
    (next (s .startSearch false 0 [] (interval 9 false))).current.map (·.state) = some .responseRx ∧
    (next (s .startSearch false 2 [] (interval 9 true))).cmu.startCount = 3 ∧
    (next (s .startSearch false 3 [] (interval 9 true))).cmu.attempt = 2 ∧
    (next (s .data false 0 (bits.take 14) (interval 9 true))).cmu.collector.length = 15 ∧
    (next (s .data false 0 bits (interval 9 false))).queues.rq0.records.map (·.body) =
      [.commandDone 1 (.channel .ch0) 2 2 .pumpSwap .done 1 (some 0x48D2) none] ∧
    ((next (s .data false 0 bits (interval 9 false))).wp 2 2).pump = .secondary := by decide +kernel

/-! ### Witnesses: what every step keeps -/

/-- The memories of the state after reset list nothing, every queue is empty, and it steps. -/
theorem witness_invariants_small :
    State.reset.memoriesCanonical ∧ State.reset.reportsBounded ∧ State.reset.workBounded ∧ State.reset.ownersPresent ∧
    step State.reset = .next State.reset := by
  refine ⟨⟨rfl, rfl, rfl, rfl, rfl, rfl, rfl⟩, ?_, ⟨by decide, by decide, by decide⟩, ?_, rfl⟩
  · intro q
    cases q <;> decide
  · intro r ch h
    cases r <;> cases h

/-- A state on the line: a sweep in INTEGRATE takes a sample. -/
theorem witness_lineConsistent :
    integrating.lineConsistent ∧ ∃ t, step { integrating with pending := [.sampleStrobe 9] } = .next t := by
  refine ⟨⟨?_, ?_, rfl, rfl, fun _ h => (nomatch h), rfl, by decide⟩, _, rfl⟩
  · intro h; cases h
  · intro c hc; cases hc; rfl

/-- A settle timer one short of its limit: the millisecond puts it at the limit. -/
theorem witness_lineConsistent_select :
    let s := { ready with
      current := some ⟨sweepWork, .select, 2047⟩, requested := some 2, settleTimer := some ⟨0, 10⟩, position := none }
    s.lineConsistent ∧ (after .epochTick s).lineConsistent ∧ (after .epochTick s).epoch = 10 := by
  refine ⟨⟨?_, ?_, rfl, rfl, ?_, rfl, by decide⟩, ⟨?_, ?_, rfl, rfl, ?_, rfl, by decide⟩, rfl⟩
  all_goals first
    | (intro h; cases h; done)
    | (intro c hc; cases hc; decide)

/-- The next work is automatic, for the confirmed verdict of its pair. -/
def isolationQueued : State :=
  { withVerdict ready none (some degraded2) 0 .pending 0 with
    isolationQueue := [⟨4, .auto, 2, .command 2 .pumpSwap 2⟩], pending := [.takeWork false] }

theorem witness_isolationFollows : isolationQueued.isolationFollows ∧ ∃ t, step isolationQueued = .next t := by
  refine ⟨⟨⟨fun _ => ⟨rfl, rfl⟩, ?_, rfl, rfl, fun _ h => (nomatch h), rfl, by decide⟩, by decide, ?_, ?_, ?_, ?_⟩, _, rfl⟩
  · intro c hc; cases hc
  · intro w hw; cases hw
  · intro w hw
    cases hw with
    | head => exact ⟨rfl, 2, rfl, rfl⟩
    | tail _ h => cases h
  · intro c hc; cases hc
  · intro c hc; cases hc

/-- Every centre lag of the state after reset is legal. -/
theorem witness_centresLegal : State.reset.centresLegal := by
  refine ⟨⟨?_, ?_, ?_⟩, ⟨?_, fun h _ _ _ => rfl, ?_⟩, ⟨?_, ?_, ?_, ?_, ?_, ?_⟩, ?_⟩
  · unfold LineSetup.legal; decide
  · unfold Template.legal; decide
  · intro p; exact (by unfold Policy.legal; decide : (policyDefault 0).legal)
  · intro h _ _ hp; cases hp
  · intro h i _ _ _ hp; cases hp
  · intro c hc; cases hc
  · intro w hw; cases hw
  · intro w hw; cases hw
  · intro g hg; cases hg
  · intro e he; cases he
  · intro p
    constructor <;> (intro x hx; cases hx)
  · intro p h hh
    have hk : wpKey p h % 193 = h := by simp only [wpKey]; omega
    have e : (State.reset.wp p h).centre = if h = 0 then 64 else 32 + h := by
      show (wpDefault (wpKey p h)).centre = _
      simp only [wpDefault, hk]
    have n : State.reset.nominalLag h = if h = 0 then 64 else 32 + h := by
      unfold State.nominalLag
      split <;> rfl
    have l : State.reset.len = 32767 := rfl
    refine ⟨by show 1 < 4; omega, ?_⟩
    rw [e, n, l]
    split <;> omega

end Sys2Proof.Tests
end

section
/-! SUPPORT. WRITE_LINE_SETUP: what each of its tests says, what the replaced Line Setup leaves in the tables, and the
statement about the request assembled from them. -/

namespace Sys2Proof.Machine

/-! ### The range test -/

theorem setupOutside_iff {m k refLag settle : Nat} : setupOutside m k refLag settle = true ↔
    m < 11 ∨ 15 < m ∨ 6 < k ∨ settle < 1 ∨ 255 < settle ∨ refLag < 32 ∨ 2 ^ m - 1 - 33 < refLag := by
  simp only [setupOutside, Bool.or_eq_true, outside_iff, seqLength, Nat.not_lt_zero, false_or, or_assoc]

/-! ### The idle test -/

theorem anyEnabled_iff {s : State} : s.anyEnabled = true ↔ ∃ i, i ≤ 192 ∧ s.someEnabled i := by
  simp only [State.anyEnabled, List.any_eq_true, mem_allHousings, enabledAt_iff]

theorem lineNotIdle_iff {s : State} : s.lineNotIdle = true ↔
    s.current ≠ none ∨ s.workQueue ≠ [] ∨ s.isolationQueue ≠ [] ∨ ∃ i, i ≤ 192 ∧ s.someEnabled i := by
  simp only [State.lineNotIdle, Bool.or_eq_true, or_assoc, anyEnabled_iff, Option.isSome_iff_ne_none,
    Bool.not_eq_true', List.isEmpty_eq_false_iff]

/-! ### The lag-order test -/

/-- A search of the repeaters finds the lowest housing that has the property. -/
theorem find?_repeaters_eq_some {p : Nat → Bool} {i : Nat} : repeaters.find? p = some i ↔
    1 ≤ i ∧ i ≤ 192 ∧ p i = true ∧ ∀ j, 1 ≤ j → j < i → p j = false := by
  have hr : repeaters = List.range' 1 192 := by
    simp only [repeaters, List.range'_eq_map_range, Nat.add_comm]
  rw [hr, List.find?_range'_eq_some]
  simp only [List.mem_range'_1, Bool.not_eq_true']
  constructor
  · rintro ⟨hp, ⟨h1, h2⟩, hj⟩
    exact ⟨h1, by omega, hp, hj⟩
  · rintro ⟨h1, h2, hp, hj⟩
    exact ⟨hp, ⟨h1, by omega⟩, hj⟩

theorem setupLagOrder_iff {s : State} {m refLag : Nat} : s.setupLagOrder m refLag = true ↔
    (∃ i, 1 ≤ i ∧ i ≤ 192 ∧ (s.housing i).present = true ∧ 2 ^ m - 1 - 32 ≤ (s.housing i).lag) ∨
    ∃ i, 1 ≤ i ∧ i ≤ 192 ∧ (s.housing i).present = true ∧ (s.housing i).lag ≤ refLag ∧
      ∀ j, 1 ≤ j → j < i → (s.housing j).present = false := by
  rw [State.setupLagOrder, Bool.or_eq_true]
  refine or_congr ?tooFar ?notAboveReference
  case tooFar =>
    simp only [List.any_eq_true, mem_repeaters, Bool.and_eq_true, decide_eq_true_eq, and_assoc]
    rfl
  case notAboveReference =>
    cases hf : repeaters.find? fun h => (s.housing h).present with
    | none =>
      have hnone := List.find?_eq_none.mp hf
      refine iff_of_false Bool.false_ne_true ?_
      rintro ⟨i, h1, h2, hp, -⟩
      exact hnone i (mem_repeaters.mpr ⟨h1, h2⟩) hp
    | some a =>
      obtain ⟨h1, h2, hp, hlow⟩ := find?_repeaters_eq_some.mp hf
      refine decide_eq_true_iff.trans ⟨fun hlag => ⟨a, h1, h2, hp, hlag, hlow⟩, ?_⟩
      rintro ⟨i, g1, g2, gp, hlag, glow⟩
      have hi := find?_repeaters_eq_some (p := fun h => (s.housing h).present) |>.mpr ⟨g1, g2, gp, glow⟩
      have hai : a = i := Option.some.inj (hf.symm.trans hi)
      rwa [hai]

/-! ### The Line Setup replaced -/

@[simp] theorem lineSetup_storeLineSetup (s : State) (x : LineSetup) : (s.storeLineSetup x).lineSetup = x := by
  rw [storeLineSetup_frame]

/-- Every watch point keeps all but its centre lag, which goes to the nominal lag under the new setup (R3). -/
theorem wp_storeLineSetup (s : State) (x : LineSetup) (p : Pair) {i : Nat} (hi : i ≤ 192) :
    (s.storeLineSetup x).wp p i =
      { s.wp p i with centre := if i = 0 then x.refLag else (s.housing i).lag } := by
  have hw := wp_updatePairs { s with lineSetup := x } allHousings
    (fun h w => { w with centre := State.nominalLag { s with lineSetup := x } h }) allPairs allPairs_nodup
    allHousings_nodup (fun _ => mem_allHousings.mp) p i hi
  rw [if_pos ⟨mem_allPairs p, mem_allHousings.mpr hi⟩] at hw
  exact hw

/-! ### The answer -/

@[simp] theorem lineSetup_accepted (s : State) (h : Handed) (clamped : Bool) (data : List Word) :
    (s.accepted h clamped data).lineSetup = s.lineSetup := rfl

@[simp] theorem wp_accepted (s : State) (h : Handed) (clamped : Bool) (data : List Word) (p : Pair) (i : Nat) :
    (s.accepted h clamped data).wp p i = s.wp p i := rfl

/-- A request that changes the Line Setup and the watch points alone is served with no other change. -/
theorem accepted_frame_of_lineSetup {s u : State} {ch : Channel} {r : Request} {h : Handed} {x : LineSetup}
    {w : Memory WatchPoint} (hu : u = { s.taken ch r with lineSetup := x, watchPoints := w }) :
    u.accepted h false [] =
      { s.served ch r h (.ok []) with
        lineSetup := (u.accepted h false []).lineSetup, watchPoints := (u.accepted h false []).watchPoints } := by
  subst hu
  rfl

/-! ### The request -/

theorem exec_writeLineSetup (ch : Channel) (s : State) :
    exec (.writeLineSetup ch) s = execWriteLineSetup ch s := rfl

/-- A request that is offered is taken, then decided by its checks. -/
theorem exec_writeLineSetup_offers {s : State} {ch : Channel} {h : Handed} (hs : s.offers ch .writeLineSetup h) :
    exec (.writeLineSetup ch) s = .next ((s.taken ch .writeLineSetup).writeLineSetup h) := by
  rw [exec_writeLineSetup]
  exact serve_offers hs _

/-- Settles O18: each test of the request says its condition, and the answered write is the Line Setup replaced. -/
theorem lineSetupIsReplacedWhole : Obligations.LineSetupIsReplacedWhole := by
  intro s ch h hs m refLag len
  refine judged_intro (exec_writeLineSetup_offers hs) ?checks ?done
  case checks =>
    refine .cons ⟨lacksTables_taken (offers_channel hs), rfl⟩ (.cons ⟨setupOutside_iff, rfl⟩
      (.cons ⟨?_, rfl⟩ (.cons ⟨?_, rfl⟩ .nil)))
    · exact lineNotIdle_iff (s := s.taken ch .writeLineSetup)
    · exact setupLagOrder_iff (s := s.taken ch .writeLineSetup)
  case done =>
    intro _
    refine ⟨?setup, fun p i hi => ?centres, ?frame⟩
    case setup => rw [lineSetup_accepted, lineSetup_storeLineSetup]
    case centres => rw [wp_accepted, wp_storeLineSetup _ _ _ hi, wp_taken, housing_taken]
    case frame => exact accepted_frame_of_lineSetup (storeLineSetup_frame _ _)

end Sys2Proof.Machine
end

section
/-! SUPPORT. WRITE_HOUSING: what each of its tests says, what a written entry leaves in the tables, and the statement about
the request assembled from them. -/

namespace Sys2Proof.Machine

/-! ### The words of an entry -/

theorem onOff?_of_le_one {n : Nat} (h : n ≤ 1) : onOff? n = some (decide (n = 1)) := by
  match n with
  | 0 | 1 => rfl
  | n + 2 => omega

theorem bitOrder?_of_le_one {n : Nat} (h : n ≤ 1) :
    bitOrder? n = some (if n = 0 then .msbFirst else .lsbFirst) := by
  match n with
  | 0 | 1 => rfl
  | n + 2 => omega

theorem nibbleOrder?_of_le_one {n : Nat} (h : n ≤ 1) :
    nibbleOrder? n = some (if n = 0 then .highFirst else .lowFirst) := by
  match n with
  | 0 | 1 => rfl
  | n + 2 => omega

theorem onOff?_eq_none {n : Nat} : onOff? n = none ↔ 1 < n := by
  rw [← Option.isNone_iff_eq_none, onOff?_isNone]

/-- Words that are all encodings give the entry they spell (R18, R184). -/
theorem housingEntry?_of_le_one {h : Handed} (h4 : h.word 4 ≤ 1) (h5 : h.word 5 ≤ 1) (h6 : h.word 6 ≤ 1)
    (h7 : h.word 7 ≤ 1) : h.housingEntry? =
      some { present := true, address := h.word 2, lag := h.word 3
             bitOrder := if h.word 4 = 0 then .msbFirst else .lsbFirst
             nibbleOrder := if h.word 5 = 0 then .highFirst else .lowFirst
             longCapable := decide (h.word 6 = 1), swapCapable := decide (h.word 7 = 1) } := by
  rw [Handed.housingEntry?, bitOrder?_of_le_one h4, nibbleOrder?_of_le_one h5, onOff?_of_le_one h6,
    onOff?_of_le_one h7]

theorem housingEntry?_isNone {h : Handed} : h.housingEntry?.isNone = true ↔
    1 < h.word 4 ∨ 1 < h.word 5 ∨ 1 < h.word 6 ∨ 1 < h.word 7 := by
  rw [← bitOrder?_isNone, ← nibbleOrder?_isNone, ← onOff?_isNone, ← onOff?_isNone, Handed.housingEntry?]
  cases bitOrder? (h.word 4) with
  | none => simp
  | some b =>
    cases nibbleOrder? (h.word 5) with
    | none => simp
    | some n =>
      cases onOff? (h.word 6) with
      | none => simp
      | some long => cases onOff? (h.word 7) <;> simp

/-! ### The tests -/

theorem notRepeater_iff {n : Nat} : notRepeater n = true ↔ n < 1 ∨ 192 < n := outside_iff

theorem housingOutside_iff {h : Handed} {n len : Nat} :
    (notRepeater n || outside 1 4094 (h.word 2) || outside 32 (len - 33) (h.word 3) || h.housingEntry?.isNone) = true ↔
      n < 1 ∨ 192 < n ∨ h.word 2 < 1 ∨ 4094 < h.word 2 ∨ h.word 3 < 32 ∨ len - 33 < h.word 3 ∨ 1 < h.word 4 ∨
        1 < h.word 5 ∨ 1 < h.word 6 ∨ 1 < h.word 7 := by
  simp only [Bool.or_eq_true, notRepeater_iff, outside_iff, housingEntry?_isNone, or_assoc]

theorem addressTaken_iff {s : State} {n address : Nat} : s.addressTaken n address = true ↔
    ∃ i, 1 ≤ i ∧ i ≤ 192 ∧ i ≠ n ∧ (s.housing i).present = true ∧ (s.housing i).address = address := by
  simp only [State.addressTaken, List.any_eq_true, mem_repeaters, Bool.and_eq_true, decide_eq_true_eq, and_assoc]

theorem housingLagOrder_iff {s : State} {n lag : Nat} (h1 : 1 ≤ n) (h2 : n ≤ 192) : s.housingLagOrder n lag = true ↔
    (∃ b, b < n ∧ s.present b = true ∧ (∀ i, b < i → i < n → s.present i = false) ∧ lag ≤ s.nominalLag b) ∨
    ∃ a, n < a ∧ a ≤ 192 ∧ s.present a = true ∧ (∀ i, n < i → i < a → s.present i = false) ∧
      s.nominalLag a ≤ lag := by
  rw [State.housingLagOrder, Bool.or_eq_true, decide_eq_true_eq]
  exact or_congr (presentBelow_iff s n lag h1) (presentAbove_iff s n lag h2)

/-! ### The entry stored -/

@[simp] theorem housing_storeHousing_same (s : State) (n : Nat) (e : HousingEntry) :
    (s.storeHousing n e).housing n = e := by
  rw [storeHousing_frame, State.housing]
  exact Memory.read_write_same ..

theorem housing_storeHousing_other (s : State) {n i : Nat} (e : HousingEntry) (hi : i ≠ n) :
    (s.storeHousing n e).housing i = s.housing i := by
  rw [storeHousing_frame, State.housing]
  exact Memory.read_write_other _ _ _ hi

/-- The centre lags of the housing's watch points go to the lag of its new entry (R21). -/
theorem wp_storeHousing (s : State) {n : Nat} (e : HousingEntry) (hn : n ≤ 192) (p : Pair) {i : Nat} (hi : i ≤ 192) :
    (s.storeHousing n e).wp p i = if i = n then { s.wp p i with centre := e.lag } else s.wp p i := by
  have hw := wp_updatePairs (s.setHousing n e) [n] (fun _ w => { w with centre := e.lag }) allPairs allPairs_nodup
    (List.nodup_singleton n) (fun _ hm => List.mem_singleton.mp hm ▸ hn) p i hi
  simp only [mem_allPairs, List.mem_singleton, true_and] at hw
  exact hw

@[simp] theorem housing_accepted (s : State) (h : Handed) (clamped : Bool) (data : List Word) (n : Nat) :
    (s.accepted h clamped data).housing n = s.housing n := rfl

/-- A request that changes housings and watch points alone is served with no other change. -/
theorem accepted_frame_of_housings {s u : State} {ch : Channel} {r : Request} {h : Handed} {e : Memory HousingEntry}
    {w : Memory WatchPoint} (hu : u = { s.taken ch r with housings := e, watchPoints := w }) :
    u.accepted h false [] =
      { s.served ch r h (.ok []) with
        housings := (u.accepted h false []).housings, watchPoints := (u.accepted h false []).watchPoints } := by
  subst hu
  rfl

/-- `t` follows from `s` by a WRITE_HOUSING that stores `e` at the housing it names (R19, R20, R21). -/
def State.entryStored (s t : State) (ch : Channel) (h : Handed) (e : HousingEntry) : Prop :=
  t.housing (h.word 0) = e ∧ (∀ i, i ≠ h.word 0 → t.housing i = s.housing i) ∧
  (∀ p i, i ≤ 192 → t.wp p i = if i = h.word 0 then { s.wp p i with centre := e.lag } else s.wp p i) ∧
  t = { s.served ch .writeHousing h (.ok []) with housings := t.housings, watchPoints := t.watchPoints }

theorem entryStored_storeHousing (s : State) (ch : Channel) {h : Handed} (hn : h.word 0 ≤ 192) (e : HousingEntry) :
    s.entryStored (((s.taken ch .writeHousing).storeHousing (h.word 0) e).accepted h false []) ch h e := by
  refine ⟨?entry, fun i hi => ?others, fun p i hi => ?centres, ?frame⟩
  case entry => rw [housing_accepted, housing_storeHousing_same]
  case others => rw [housing_accepted, housing_storeHousing_other _ _ hi, housing_taken]
  case centres => rw [wp_accepted, wp_storeHousing _ _ hn _ hi, wp_taken]
  case frame => exact accepted_frame_of_housings (storeHousing_frame _ _ _)

/-! ### The request -/

theorem exec_writeHousing (ch : Channel) (s : State) : exec (.writeHousing ch) s = execWriteHousing ch s := rfl

/-- A request that is offered is taken, then decided by its present word and its checks. -/
theorem exec_writeHousing_offers {s : State} {ch : Channel} {h : Handed} (hs : s.offers ch .writeHousing h) :
    exec (.writeHousing ch) s = .next ((s.taken ch .writeHousing).writeHousing h) := by
  rw [exec_writeHousing]
  exact serve_offers hs _

/-- Present yes (R19). -/
theorem writeHousing_of_present {s : State} {h : Handed} (hw : h.word 1 = 1) : s.writeHousing h =
    s.decided h
      [(s.lacksTables h, .notClaimed),
       (notRepeater (h.word 0) || outside 1 4094 (h.word 2) || outside 32 (s.len - 33) (h.word 3) ||
          h.housingEntry?.isNone, .outOfRange),
       (s.enabledAt (h.word 0), .watchPointEnabled), (s.addressTaken (h.word 0) (h.word 2), .duplicateAddress),
       (s.housingLagOrder (h.word 0) (h.word 3), .lagOrder)]
      ((s.storeHousing (h.word 0) (h.housingEntry?.getD (housingDefault (h.word 0)))).accepted h false []) := by
  simp only [State.writeHousing, hw, onOff?]

/-- Present no (R20). -/
theorem writeHousing_of_removal {s : State} {h : Handed} (hw : h.word 1 = 0) : s.writeHousing h =
    s.decided h
      [(s.lacksTables h, .notClaimed), (notRepeater (h.word 0), .outOfRange),
       (s.enabledAt (h.word 0), .watchPointEnabled)]
      ((s.storeHousing (h.word 0) (housingDefault (h.word 0))).accepted h false []) := by
  simp only [State.writeHousing, hw, onOff?]

/-- A present word that is no encoding (R184). -/
theorem writeHousing_of_undefined {s : State} {h : Handed} (hw : 1 < h.word 1) : s.writeHousing h =
    s.decided h [(s.lacksTables h, .notClaimed)] (s.answer h (.refusal .outOfRange)) := by
  simp only [State.writeHousing, onOff?_eq_none.mpr hw]

/-- Settles O19: the present word selects the checks, and both writes store an entry with its centre lags. The lag-order
test looks for the neighbours of a housing that the range test before it has passed. -/
theorem housingWriteKeepsLagOrder : Obligations.HousingWriteKeepsLagOrder := by
  intro s ch h hs n address lag stored
  have hclaim := lacksTables_taken (s := s) (r := .writeHousing) (offers_channel hs)
  have henabled : (s.taken ch .writeHousing).enabledAt n = true ↔ s.someEnabled n := enabledAt_iff
  refine ⟨_, exec_writeHousing_offers hs, fun hw => ?present, fun hw => ?removal, fun hw => ?undefined⟩
  case present =>
    refine judged_cons (writeHousing_of_present hw) hclaim fun _ ht => ?_
    refine judged_cons ht housingOutside_iff fun hrange ht => ?_
    simp only [not_or, Nat.not_lt] at hrange
    obtain ⟨hn1, hn, -, -, -, -, h4, h5, h6, h7⟩ := hrange
    refine judged_cons ht henabled fun _ ht => ?_
    refine judged_cons ht (addressTaken_iff (s := s.taken ch .writeHousing)) fun _ ht => ?_
    refine judged_cons ht (housingLagOrder_iff (s := s.taken ch .writeHousing) hn1 hn) fun _ ht => ?_
    rw [housingEntry?_of_le_one h4 h5 h6 h7] at ht
    exact judged_nil ht fun e => e ▸ entryStored_storeHousing s ch hn _
  case removal =>
    refine judged_cons (writeHousing_of_removal hw) hclaim fun _ ht => ?_
    refine judged_cons ht notRepeater_iff fun hrange ht => ?_
    simp only [not_or, Nat.not_lt] at hrange
    refine judged_cons ht henabled fun _ ht => ?_
    exact judged_nil ht fun e => e ▸ entryStored_storeHousing s ch hrange.2 _
  case undefined => exact judged_cons (writeHousing_of_undefined hw) hclaim fun _ ht => judged_nil ht id

end Sys2Proof.Machine
end

section
/-! SUPPORT. WRITE_TEMPLATE: what its tests say, what a stored template leaves in the tables, and the statement about the
request assembled from them. -/

namespace Sys2Proof.Machine

/-! ### The tests -/

theorem templateOutside_iff {n width : Nat} :
    (outside 0 3 n || decide (width % 2 = 1) || outside 4 64 width) = true ↔
      3 < n ∨ width % 2 = 1 ∨ width < 4 ∨ 64 < width := by
  simp only [Bool.or_eq_true, outside_iff, decide_eq_true_eq, Nat.not_lt_zero, false_or, or_assoc]

theorem templateInUse_iff {s : State} {n : Nat} : s.templateInUse n = true ↔
    ∃ p i, i ≤ 192 ∧ (s.wp p i).enabled = true ∧ (s.wp p i).template = n := by
  simp only [State.templateInUse, List.any_eq_true, mem_allPairs, mem_allHousings, true_and, Bool.and_eq_true,
    decide_eq_true_eq]

/-! ### The template stored -/

@[simp] theorem template_storeTemplate_same (s : State) (n width limit : Nat) :
    (s.storeTemplate n width limit).template n = ⟨width, min limit (width / 4)⟩ := by
  rw [storeTemplate_frame]
  exact Memory.read_write_same ..

theorem template_storeTemplate_other (s : State) {n i : Nat} (width limit : Nat) (hi : i ≠ n) :
    (s.storeTemplate n width limit).template i = s.template i := by
  rw [storeTemplate_frame]
  exact Memory.read_write_other _ _ _ hi

theorem nearCentre_eq (nominal width centre : Nat) :
    nearCentre nominal width centre = max (nominal - width / 2) (min (nominal + width / 2) centre) :=
  clampTo_eq (by omega)

/-- The watch points that select the template have their centre lags moved into its new window, the others stay (R23). -/
theorem wp_storeTemplate (s : State) (n width limit : Nat) (p : Pair) {i : Nat} (hi : i ≤ 192) :
    (s.storeTemplate n width limit).wp p i =
      if (s.wp p i).template = n then
        { s.wp p i with
          centre := max (s.nominalLag i - width / 2) (min (s.nominalLag i + width / 2) (s.wp p i).centre) }
      else s.wp p i := by
  have hw := wp_updatePairs
    { s with templates := Memory.write templateDefault s.templates n ⟨width, min limit (width / 4)⟩ } allHousings
    (fun h w => if w.template = n then { w with centre := nearCentre (s.nominalLag h) width w.centre } else w)
    allPairs allPairs_nodup allHousings_nodup (fun _ => mem_allHousings.mp) p i hi
  rw [if_pos ⟨mem_allPairs p, mem_allHousings.mpr hi⟩, nearCentre_eq] at hw
  exact hw

/-! ### The request -/

@[simp] theorem template_accepted (s : State) (h : Handed) (clamped : Bool) (data : List Word) (n : Nat) :
    (s.accepted h clamped data).template n = s.template n := rfl

/-- A request that changes templates and watch points alone is served with no other change. -/
theorem accepted_frame_of_templates {s u : State} {ch : Channel} {r : Request} {h : Handed} {clamped : Bool}
    {e : Memory Template} {w : Memory WatchPoint} (hu : u = { s.taken ch r with templates := e, watchPoints := w }) :
    u.accepted h clamped [] =
      { s.served ch r h (.okClamped clamped []) with
        templates := (u.accepted h clamped []).templates
        watchPoints := (u.accepted h clamped []).watchPoints } := by
  subst hu
  rfl

@[simp] theorem nominalLag_taken (s : State) (ch : Channel) (r : Request) (n : Nat) :
    (s.taken ch r).nominalLag n = s.nominalLag n := rfl

theorem exec_writeTemplate (ch : Channel) (s : State) : exec (.writeTemplate ch) s = execWriteTemplate ch s := rfl

/-- A request that is offered is taken, then decided by its checks. -/
theorem exec_writeTemplate_offers {s : State} {ch : Channel} {h : Handed} (hs : s.offers ch .writeTemplate h) :
    exec (.writeTemplate ch) s = .next ((s.taken ch .writeTemplate).writeTemplate h) := by
  rw [exec_writeTemplate]
  exact serve_offers hs _

/-- Settles O20: each test of the request says its condition, and the answered write is the template stored. -/
theorem templateWriteKeepsWindows : Obligations.TemplateWriteKeepsWindows := by
  intro s ch h hs n width limit
  refine judged_intro (exec_writeTemplate_offers hs) ?checks ?done
  case checks =>
    exact .cons ⟨lacksTables_taken (offers_channel hs), rfl⟩ (.cons ⟨templateOutside_iff, rfl⟩
      (.cons ⟨templateInUse_iff (s := s.taken ch .writeTemplate), rfl⟩ .nil))
  case done =>
    intro _
    refine ⟨?entry, fun i hi => ?others, fun p i hi => ?centres, ?frame⟩
    case entry => rw [template_accepted, template_storeTemplate_same]
    case others => rw [template_accepted, template_storeTemplate_other _ _ _ hi, template_taken]
    case centres => rw [wp_accepted, wp_storeTemplate _ _ _ _ _ hi, wp_taken, nominalLag_taken]
    case frame => exact accepted_frame_of_templates (storeTemplate_frame _ _ _ _)

end Sys2Proof.Machine
end

section
/-! SUPPORT. SET_QUARANTINE and CLEAR_QUARANTINE as one operation on the mark of a watch point: the mark with its record, the
withdrawal of a queued entry, and the statement about both requests assembled from them. -/

namespace Sys2Proof.Machine

/-! ### The mark -/

/-- The mark of (p, n) made equal to `mark`, with its updated time and QUARANTINE record when it changes (R36, R37). -/
def State.setMark (s : State) (p : Pair) (n : Nat) (mark : Option Nat) (origin : Origin) : State :=
  if (s.wp p n).quarantine = mark then s
  else
    (s.setWp p n { s.wp p n with quarantine := mark, updated := s.epoch }).postVerdict p
      (.quarantine p n mark.isSome (mark.getD 0) origin)

theorem markQuarantine_eq_setMark (s : State) (p : Pair) (n depth : Nat) (origin : Origin) :
    s.markQuarantine p n depth origin = s.setMark p n (some depth) origin := rfl

theorem unmarkQuarantine_eq_setMark (s : State) (p : Pair) (n : Nat) (origin : Origin) :
    s.unmarkQuarantine p n origin = s.setMark p n none origin := rfl

theorem setMark_same {s : State} {p : Pair} {n : Nat} {mark : Option Nat} (h : (s.wp p n).quarantine = mark)
    (origin : Origin) : s.setMark p n mark origin = s := if_pos h

theorem setMark_changed {s : State} {p : Pair} {n : Nat} {mark : Option Nat} (h : (s.wp p n).quarantine ≠ mark)
    (origin : Origin) : s.setMark p n mark origin =
      (s.setWp p n { s.wp p n with quarantine := mark, updated := s.epoch }).postVerdict p
        (.quarantine p n mark.isSome (mark.getD 0) origin) := if_neg h

theorem wp_postVerdict (s : State) (p q : Pair) (b : RecordBody) (i : Nat) : (s.postVerdict p b).wp q i = s.wp q i := rfl

theorem wp_setMark_changed {s : State} {p : Pair} {n : Nat} {mark : Option Nat} (h : (s.wp p n).quarantine ≠ mark)
    (origin : Origin) :
    (s.setMark p n mark origin).wp p n = { s.wp p n with quarantine := mark, updated := s.epoch } := by
  rw [setMark_changed h, wp_postVerdict, wp_setWp_same]

theorem queues_setMark_changed {s : State} {p : Pair} {n : Nat} {mark : Option Nat} (h : (s.wp p n).quarantine ≠ mark)
    (origin : Origin) : (s.setMark p n mark origin).queues =
      (s.post (s.policy p).verdictQueue (.quarantine p n mark.isSome (mark.getD 0) origin)).queues := by
  rw [setMark_changed h]
  rfl

theorem wp_setMark_other (s : State) {p q : Pair} {n i : Nat} (mark : Option Nat) (origin : Origin) (hn : n ≤ 192)
    (hi : i ≤ 192) (hne : q ≠ p ∨ i ≠ n) : (s.setMark p n mark origin).wp q i = s.wp q i := by
  by_cases h : (s.wp p n).quarantine = mark
  · rw [setMark_same h]
  · rw [setMark_changed h, wp_postVerdict,
      wp_setWp_other s _ hn hi (by simpa only [ne_eq, Prod.mk.injEq, not_and_or] using hne)]

theorem setMark_frame (s : State) (p : Pair) (n : Nat) (mark : Option Nat) (origin : Origin) :
    s.setMark p n mark origin =
      { s with
        watchPoints := (s.setMark p n mark origin).watchPoints, queues := (s.setMark p n mark origin).queues } := by
  by_cases h : (s.wp p n).quarantine = mark
  · rw [setMark_same h]
  · rw [setMark_changed h]
    rfl

@[simp] theorem isolationQueue_setMark (s : State) (p : Pair) (n : Nat) (mark : Option Nat) (origin : Origin) :
    (s.setMark p n mark origin).isolationQueue = s.isolationQueue := by
  rw [setMark_frame]

@[simp] theorem verdict_setMark (s : State) (p : Pair) (n : Nat) (mark : Option Nat) (origin : Origin) (q : Pair) :
    (s.setMark p n mark origin).verdict q = s.verdict q := by
  rw [setMark_frame]
  rfl

/-! ### The withdrawal -/

theorem ofTarget_eq (p : Pair) (n : Nat) (w : Work) :
    Work.ofTarget p n w = decide (w.pair = p ∧ w.housing = n) := (Bool.decide_and _ _).symm

theorem any_ofTarget_iff {l : List Work} {p : Pair} {n : Nat} :
    l.any (Work.ofTarget p n) = true ↔ ∃ w ∈ l, w.pair = p ∧ w.housing = n := by
  simp only [List.any_eq_true, ofTarget_eq, decide_eq_true_eq]

theorem withdrawTarget_queued {s : State} {p : Pair} {n : Nat} (h : ∃ w ∈ s.isolationQueue, w.pair = p ∧ w.housing = n)
    (st : IsolationStatus) : s.withdrawTarget p n st = (s.withdraw (Work.ofTarget p n)).setStatus p st :=
  if_pos (any_ofTarget_iff.mpr h)

theorem withdrawTarget_not_queued {s : State} {p : Pair} {n : Nat}
    (h : ¬ ∃ w ∈ s.isolationQueue, w.pair = p ∧ w.housing = n) (st : IsolationStatus) : s.withdrawTarget p n st = s :=
  if_neg (mt any_ofTarget_iff.mp h)

theorem isolationQueue_withdrawTarget (s : State) (p : Pair) (n : Nat) (st : IsolationStatus) :
    (s.withdrawTarget p n st).isolationQueue =
      s.isolationQueue.filter fun w => !decide (w.pair = p ∧ w.housing = n) := by
  by_cases h : ∃ w ∈ s.isolationQueue, w.pair = p ∧ w.housing = n
  · rw [withdrawTarget_queued h, State.isolationQueue_setStatus, State.isolationQueue_withdraw]
    simp only [ofTarget_eq]
  · rw [withdrawTarget_not_queued h, List.filter_eq_self.mpr]
    intro w hw
    rw [Bool.not_eq_true', decide_eq_false_iff_not]
    exact fun hc => h ⟨w, hw, hc⟩

theorem verdict_withdrawTarget_queued {s : State} {p : Pair} {n : Nat}
    (h : ∃ w ∈ s.isolationQueue, w.pair = p ∧ w.housing = n) (st : IsolationStatus) :
    (s.withdrawTarget p n st).verdict p = { s.verdict p with status := st } := by
  rw [withdrawTarget_queued h]
  exact verdict_setVerdict_same ..

theorem verdict_withdrawTarget_other (s : State) {p q : Pair} (n : Nat) (st : IsolationStatus) (hq : q ≠ p) :
    (s.withdrawTarget p n st).verdict q = s.verdict q := by
  by_cases h : ∃ w ∈ s.isolationQueue, w.pair = p ∧ w.housing = n
  · rw [withdrawTarget_queued h]
    exact verdict_setVerdict_other _ _ hq
  · rw [withdrawTarget_not_queued h]

theorem withdrawTarget_frame (s : State) (p : Pair) (n : Nat) (st : IsolationStatus) :
    s.withdrawTarget p n st =
      { s with
        isolationQueue := (s.withdrawTarget p n st).isolationQueue
        verdicts := (s.withdrawTarget p n st).verdicts } := by
  by_cases h : ∃ w ∈ s.isolationQueue, w.pair = p ∧ w.housing = n
  · rw [withdrawTarget_queued h]
    rfl
  · rw [withdrawTarget_not_queued h]

/-! ### The request carried out -/

/-- The skip depth that SET_QUARANTINE (`set`) or CLEAR_QUARANTINE records (R36, R37). -/
def Handed.depth (h : Handed) (set : Bool) : Nat := if set then min 4 (h.word 1) else 0

/-- The mark that SET_QUARANTINE (`set`) or CLEAR_QUARANTINE asks for (R36, R37). -/
def Handed.mark (h : Handed) (set : Bool) : Option Nat := if set then some (h.depth set) else none

@[simp] theorem isSome_mark (h : Handed) (set : Bool) : (h.mark set).isSome = set := by cases set <;> rfl

@[simp] theorem getD_mark (h : Handed) (set : Bool) : (h.mark set).getD 0 = h.depth set := by
  cases set <;> rfl

/-- The mark of the housing that the request names, and the withdrawal of its queued entry (R36, R37). -/
def State.quarantined (s : State) (h : Handed) (set : Bool) (st : IsolationStatus) : State :=
  (s.setMark h.selector (h.word 0) (h.mark set) (.channel h.channel)).withdrawTarget h.selector (h.word 0) st

theorem setQuarantine_eq (s : State) (h : Handed) : s.setQuarantine h =
    s.decided h (s.housingChecks h)
      ((s.quarantined h true .quarantined).accepted h (true && decide (4 < h.word 1)) []) := by
  have hdepth : clampTo 0 4 (h.word 1) = min 4 (h.word 1) := by rw [clampTo_eq (Nat.zero_le 4), Nat.zero_max]
  rw [State.setQuarantine, markQuarantine_eq_setMark, hdepth]
  rfl

theorem clearQuarantine_eq (s : State) (h : Handed) : s.clearQuarantine h =
    s.decided h (s.housingChecks h)
      ((s.quarantined h false .cancelled).accepted h (false && decide (4 < h.word 1)) []) := by
  rw [State.clearQuarantine, unmarkQuarantine_eq_setMark]
  rfl

theorem wp_quarantined (s : State) (h : Handed) (set : Bool) (st : IsolationStatus) (q : Pair) (i : Nat) :
    (s.quarantined h set st).wp q i = (s.setMark h.selector (h.word 0) (h.mark set) (.channel h.channel)).wp q i := by
  rw [State.quarantined, withdrawTarget_frame]
  rfl

theorem wp_quarantined_changed {s : State} {h : Handed} {set : Bool}
    (hm : (s.wp h.selector (h.word 0)).quarantine ≠ h.mark set) (st : IsolationStatus) :
    (s.quarantined h set st).wp h.selector (h.word 0) =
      { s.wp h.selector (h.word 0) with quarantine := h.mark set, updated := s.epoch } := by
  rw [wp_quarantined, wp_setMark_changed hm]

theorem wp_quarantined_same {s : State} {h : Handed} {set : Bool}
    (hm : (s.wp h.selector (h.word 0)).quarantine = h.mark set) (st : IsolationStatus) :
    (s.quarantined h set st).wp h.selector (h.word 0) = s.wp h.selector (h.word 0) := by
  rw [wp_quarantined, setMark_same hm]

theorem wp_quarantined_other (s : State) {h : Handed} (set : Bool) (st : IsolationStatus) (hn : h.word 0 ≤ 192)
    {q : Pair} {i : Nat} (hi : i ≤ 192) (hne : q ≠ h.selector ∨ i ≠ h.word 0) :
    (s.quarantined h set st).wp q i = s.wp q i := by
  rw [wp_quarantined, wp_setMark_other _ _ _ hn hi hne]

theorem queues_quarantined (s : State) (h : Handed) (set : Bool) (st : IsolationStatus) :
    (s.quarantined h set st).queues =
      (s.setMark h.selector (h.word 0) (h.mark set) (.channel h.channel)).queues := by
  rw [State.quarantined, withdrawTarget_frame]

theorem queues_quarantined_changed {s : State} {h : Handed} {set : Bool}
    (hm : (s.wp h.selector (h.word 0)).quarantine ≠ h.mark set) (st : IsolationStatus) :
    (s.quarantined h set st).queues = (s.post (s.policy h.selector).verdictQueue
      (.quarantine h.selector (h.word 0) set (h.depth set) (.channel h.channel))).queues := by
  rw [queues_quarantined, queues_setMark_changed hm, isSome_mark, getD_mark]

theorem queues_quarantined_same {s : State} {h : Handed} {set : Bool}
    (hm : (s.wp h.selector (h.word 0)).quarantine = h.mark set) (st : IsolationStatus) :
    (s.quarantined h set st).queues = s.queues := by
  rw [queues_quarantined, setMark_same hm]

theorem isolationQueue_quarantined (s : State) (h : Handed) (set : Bool) (st : IsolationStatus) :
    (s.quarantined h set st).isolationQueue =
      s.isolationQueue.filter fun w => !decide (w.pair = h.selector ∧ w.housing = h.word 0) := by
  rw [State.quarantined, isolationQueue_withdrawTarget, isolationQueue_setMark]

theorem verdict_quarantined_queued {s : State} {h : Handed}
    (hq : ∃ w ∈ s.isolationQueue, w.pair = h.selector ∧ w.housing = h.word 0) (set : Bool) (st : IsolationStatus) :
    (s.quarantined h set st).verdict h.selector = { s.verdict h.selector with status := st } := by
  rw [State.quarantined, verdict_withdrawTarget_queued (by rwa [isolationQueue_setMark]), verdict_setMark]

theorem verdict_quarantined_not_queued {s : State} {h : Handed}
    (hq : ¬ ∃ w ∈ s.isolationQueue, w.pair = h.selector ∧ w.housing = h.word 0) (set : Bool) (st : IsolationStatus) :
    (s.quarantined h set st).verdict h.selector = s.verdict h.selector := by
  rw [State.quarantined, withdrawTarget_not_queued (by rwa [isolationQueue_setMark]), verdict_setMark]

theorem verdict_quarantined_other (s : State) {h : Handed} {q : Pair} (set : Bool) (st : IsolationStatus)
    (hq : q ≠ h.selector) : (s.quarantined h set st).verdict q = s.verdict q := by
  rw [State.quarantined, verdict_withdrawTarget_other _ _ _ hq, verdict_setMark]

/-- A request on a quarantine mark touches four fields alone. -/
theorem quarantined_frame (s : State) (h : Handed) (set : Bool) (st : IsolationStatus) : s.quarantined h set st =
    { s with
      watchPoints := (s.quarantined h set st).watchPoints, queues := (s.quarantined h set st).queues
      isolationQueue := (s.quarantined h set st).isolationQueue, verdicts := (s.quarantined h set st).verdicts } := by
  unfold State.quarantined
  rw [withdrawTarget_frame, setMark_frame]

/-! ### The requests -/

/-- The checks shared by the requests that name a pair and a repeater housing (R31, R36, R37). -/
theorem housingChecks_iff {s : State} {ch : Channel} {r : Request} {h : Handed} (hc : h.channel = ch) :
    List.Forall₂ (fun a b => (a.1 = true ↔ b.1) ∧ a.2 = b.2) ((s.taken ch r).housingChecks h)
      [(s.tablesClaim.owner ≠ some ch, .notClaimed), (s.notFitted h.selector ∨ h.word 0 < 1 ∨ 192 < h.word 0, .outOfRange),
       (s.isBusy h.selector, .pairBusy)] := by
  have hrange : ((s.taken ch r).unfitted h || notRepeater (h.word 0)) = true ↔
      s.notFitted h.selector ∨ h.word 0 < 1 ∨ 192 < h.word 0 := by
    rw [Bool.or_eq_true, unfitted_taken, notRepeater_iff]
  exact .cons ⟨lacksTables_taken hc, rfl⟩ (.cons ⟨hrange, rfl⟩ (.cons ⟨busy_taken, rfl⟩ .nil))

@[simp] theorem queues_accepted (s : State) (h : Handed) (clamped : Bool) (data : List Word) :
    (s.accepted h clamped data).queues = s.queues := rfl

@[simp] theorem isolationQueue_accepted (s : State) (h : Handed) (clamped : Bool) (data : List Word) :
    (s.accepted h clamped data).isolationQueue = s.isolationQueue := rfl

@[simp] theorem verdict_accepted (s : State) (h : Handed) (clamped : Bool) (data : List Word) (p : Pair) :
    (s.accepted h clamped data).verdict p = s.verdict p := rfl

/-- A request that changes watch points, report queues, the Isolation Queue and Verdict Registers alone is served with no
other change. -/
theorem accepted_frame_of_quarantine {s u : State} {ch : Channel} {r : Request} {h : Handed} {clamped : Bool}
    {w : Memory WatchPoint} {q : PerQueue ReportQueue} {l : List Work} {v : Memory VerdictRegister}
    (hu : u = { s.taken ch r with watchPoints := w, queues := q, isolationQueue := l, verdicts := v }) :
    u.accepted h clamped [] =
      { s.served ch r h (.okClamped clamped []) with
        watchPoints := (u.accepted h clamped []).watchPoints, queues := (u.accepted h clamped []).queues
        isolationQueue := (u.accepted h clamped []).isolationQueue
        verdicts := (u.accepted h clamped []).verdicts } := by
  subst hu
  rfl

theorem exec_setQuarantine (ch : Channel) (s : State) : exec (.setQuarantine ch) s = execSetQuarantine ch s := rfl

theorem exec_clearQuarantine (ch : Channel) (s : State) : exec (.clearQuarantine ch) s = execClearQuarantine ch s := rfl

/-- Both requests are taken, then decided by the checks they share, and differ in the mark and the status alone. -/
theorem exec_quarantine_offers {s : State} {ch : Channel} {r : Request} {h : Handed} {c : Instr} {set : Bool}
    {st : IsolationStatus}
    (hc : (c, r, set, st) ∈ [(Instr.setQuarantine ch, Request.setQuarantine, true, IsolationStatus.quarantined),
      (.clearQuarantine ch, .clearQuarantine, false, .cancelled)])
    (hs : s.offers ch r h) : exec c s = .next ((s.taken ch r).decided h ((s.taken ch r).housingChecks h)
      (((s.taken ch r).quarantined h set st).accepted h (set && decide (4 < h.word 1)) [])) := by
  simp only [List.mem_cons, List.not_mem_nil, or_false, Prod.mk.injEq] at hc
  obtain ⟨rfl, rfl, rfl, rfl⟩ | ⟨rfl, rfl, rfl, rfl⟩ := hc
  · rw [exec_setQuarantine, ← setQuarantine_eq]
    exact serve_offers hs _
  · rw [exec_clearQuarantine, ← clearQuarantine_eq]
    exact serve_offers hs _

/-- Settles O24: both requests are one operation, the mark of a watch point set with its record and then the queued entry
withdrawn; the two parts touch different fields. -/
theorem quarantineIsMarked : Obligations.QuarantineIsMarked := by
  intro s ch r h c set st hc hs p n depth mark queued
  have hch : h.channel = ch := offers_channel hs
  refine judged_intro (exec_quarantine_offers hc hs) (housingChecks_iff hch) fun hpassed => ?_
  have hn : n ≤ 192 := by
    have hrange := hpassed _ (.tail _ (.head _))
    omega
  refine ⟨fun hne => ⟨?marked, ?recorded⟩, fun heq => ⟨?kept, ?unrecorded⟩, fun q i hi hne => ?others, ?queue,
    fun hq => ?status, fun hq => ?noStatus, fun q hq => ?otherVerdicts, ?frame⟩
  case marked => exact wp_quarantined_changed (s := s.taken ch r) hne st
  case recorded => exact hch ▸ queues_quarantined_changed (s := s.taken ch r) hne st
  case kept => exact wp_quarantined_same (s := s.taken ch r) heq st
  case unrecorded => exact queues_quarantined_same (s := s.taken ch r) heq st
  case others => exact wp_quarantined_other (s.taken ch r) set st hn hi hne
  case queue => exact isolationQueue_quarantined (s.taken ch r) h set st
  case status => exact verdict_quarantined_queued (s := s.taken ch r) hq set st
  case noStatus => exact verdict_quarantined_not_queued (s := s.taken ch r) hq set st
  case otherVerdicts => exact verdict_quarantined_other (s.taken ch r) set st hq
  case frame => exact accepted_frame_of_quarantine (quarantined_frame _ _ _ _)

end Sys2Proof.Machine
end

section
/-! SUPPORT. The command frame: its low six bits are the check and the bits above it the three fields, from which every
field and every 6-bit group is read back, and the statement assembled from them. -/

namespace Sys2Proof.Machine

/-! ### The two parts of a frame -/

theorem frameCheck_lt (address pair op : Nat) : frameCheck address pair op < 64 := Nat.mod_lt _ (by decide)

/-- A frame is its first 18 bits followed by the check. -/
theorem frameOf_eq (address pair op : Nat) :
    frameOf address pair op = 64 * (address * 64 + (pair * 8 + op)) + frameCheck address pair op := by
  unfold frameOf
  omega

theorem frameOf_mod_64 (address pair op : Nat) : frameOf address pair op % 64 = frameCheck address pair op := by
  rw [frameOf_eq, Nat.mul_add_mod, Nat.mod_eq_of_lt (frameCheck_lt address pair op)]

theorem frameOf_div_64 (address pair op : Nat) :
    frameOf address pair op / 64 = address * 64 + (pair * 8 + op) := by
  rw [frameOf_eq, Nat.mul_add_div (by decide), Nat.div_eq_of_lt (frameCheck_lt address pair op), Nat.add_zero]

theorem frameOf_lt {address pair op : Nat} (ha : address < 4096) (hp : pair < 8) (ho : op < 8) :
    frameOf address pair op < 2 ^ 24 := by
  have check := frameCheck_lt address pair op
  rw [frameOf_eq]
  omega

/-! ### The fields and the 6-bit groups

Pair and operation within three bits each carry nothing into the address, whatever the address is. -/

section Fields

variable {address pair op : Nat} (hp : pair < 8) (ho : op < 8)
include hp ho

theorem frameOf_address : frameOf address pair op / 4096 = address := by
  have above := frameOf_div_64 address pair op
  omega

theorem frameOf_pair : frameOf address pair op / 512 % 8 = pair := by
  have above := frameOf_div_64 address pair op
  omega

theorem frameOf_group : frameOf address pair op / 64 % 64 = pair * 8 + op := by
  have above := frameOf_div_64 address pair op
  omega

theorem frameOf_addressHigh : frameOf address pair op / 2 ^ 18 = address / 64 := by
  have field := frameOf_address (address := address) hp ho
  omega

end Fields

theorem frameOf_op {address pair op : Nat} (ho : op < 8) : frameOf address pair op / 64 % 8 = op := by
  have above := frameOf_div_64 address pair op
  omega

/-- Settles O52: the fields are read back above the check, and the check is the sum of the groups they form. -/
theorem frameCarriesItsCheck : Obligations.FrameCarriesItsCheck := by
  intro address pair op ha hp ho frame
  refine ⟨frameOf_lt ha hp ho, frameOf_address hp ho, frameOf_pair hp ho, frameOf_op ho, ?check⟩
  case check =>
    have high : frame / 2 ^ 18 = address / 64 := frameOf_addressHigh hp ho
    have low : frame / 2 ^ 12 % 64 = address % 64 := congrArg (· % 64) (frameOf_address hp ho)
    have group : frame / 64 % 64 = pair * 8 + op := frameOf_group hp ho
    calc frame % 64 = frameCheck address pair op := frameOf_mod_64 address pair op
      _ = (frame / 2 ^ 18 + frame / 2 ^ 12 % 64 + frame / 64 % 64) % 64 := by rw [high, low, group, frameCheck]

end Sys2Proof.Machine
end

section
/-! SUPPORT. The claim requests: what each rule answers, what a decided request leaves, and the statements about the five
requests assembled from them. -/

namespace Sys2Proof.Machine

/-! ### Words and claim records -/

/-- A parameter read as a number is the parameter itself again when a record stores it. -/
theorem word_word (h : Handed) (i : Nat) : word (h.word i) = h.params.getD i 0 := by
  rw [word, Handed.word, BitVec.ofNat_toNat, BitVec.setWidth_eq]

@[simp] theorem setClaim_claim (s : State) (r : Resource) : s.setClaim r (s.claim r) = s := by cases r <;> rfl

theorem ownedBy_iff {c : Claim} {ch : Channel} : c.ownedBy ch = true ↔ c.owner = some ch := decide_eq_true_iff

theorem unclean_eq_false_iff {a : Alarms} :
    a.unclean = false ↔ a.verdict = 0 ∧ a.selectorFault = false ∧ a.receiverLos = false := by
  simp only [Alarms.unclean, Bool.or_eq_false_iff, decide_eq_false_iff_not, not_not, and_assoc]

/-! ### The rules -/

section Rules

variable {ch : Channel} {tag : Word} {now : Time} {c : Claim} {unclean : Bool}

theorem claimRule_free (hc : c.owner = none) : claimRule ch tag now c = .accept ⟨some ch, tag, now⟩ := by
  simp only [claimRule, hc]

theorem claimRule_own (hc : c.owner = some ch) : claimRule ch tag now c = .accept ⟨some ch, tag, c.since⟩ := by
  simp only [claimRule, hc, if_true]

theorem claimRule_held {o : Channel} (hc : c.owner = some o) (ho : o ≠ ch) :
    claimRule ch tag now c = .abort c .held := by
  simp only [claimRule, hc, if_neg ho]

theorem claimIfCleanRule_held {o : Channel} (hc : c.owner = some o) (ho : o ≠ ch) :
    claimIfCleanRule unclean ch tag now c = .abort c .held := by
  refine if_pos ⟨?_, ?_⟩
  · rw [hc]; exact Option.some_ne_none o
  · rw [hc]; exact fun e => ho (Option.some.inj e)

theorem claimIfCleanRule_unclean (hc : c.owner = none ∨ c.owner = some ch) :
    claimIfCleanRule true ch tag now c = .abort c .notClean := by
  have hfree : ¬ (c.owner ≠ none ∧ c.owner ≠ some ch) := by simpa only [← not_or, not_not] using hc
  exact (if_neg hfree).trans (if_pos rfl)

/-- With a clear summary CLAIM_IF_CLEAN is CLAIM (R145). -/
theorem claimIfCleanRule_clean : claimIfCleanRule false ch tag now c = claimRule ch tag now c := by
  cases hc : c.owner with
  | none => simp [claimIfCleanRule, hc]
  | some o =>
    by_cases ho : o = ch
    · simp [claimIfCleanRule, hc, ho]
    · rw [claimIfCleanRule_held hc ho, claimRule_held hc ho]

theorem checkRule_accept (hc : c.owner = some ch) (ht : c.tag = tag) : checkRule ch tag c = .accept c := by
  rw [checkRule, if_pos (ownedBy_iff.mpr hc), if_pos ht]

theorem checkRule_tagMismatch (hc : c.owner = some ch) (ht : c.tag ≠ tag) :
    checkRule ch tag c = .abort c .tagMismatch := by
  rw [checkRule, if_pos (ownedBy_iff.mpr hc), if_neg ht]

theorem checkRule_notOwner (hc : c.owner ≠ some ch) : checkRule ch tag c = .abort c .notOwner := by
  rw [checkRule, if_neg (mt ownedBy_iff.mp hc)]

theorem releaseRule_accept (hc : c.owner = some ch) : releaseRule ch now c = .accept ⟨none, 0, now⟩ := by
  rw [releaseRule, if_pos (ownedBy_iff.mpr hc)]

theorem releaseRule_notOwner (hc : c.owner ≠ some ch) : releaseRule ch now c = .abort c .notOwner := by
  rw [releaseRule, if_neg (mt ownedBy_iff.mp hc)]

theorem takeoverRule_notHeld (hc : c.owner = none) : takeoverRule ch tag now c = .abort c .notHeld := by
  simp only [takeoverRule, hc]

theorem takeoverRule_own (hc : c.owner = some ch) : takeoverRule ch tag now c = .accept c := by
  simp only [takeoverRule, hc, if_true]

theorem takeoverRule_takes {o : Channel} (hc : c.owner = some o) (ho : o ≠ ch) (ht : c.tag = tag) :
    takeoverRule ch tag now c = ⟨.none, ⟨some ch, tag, now⟩, some o⟩ := by
  simp only [takeoverRule, hc, if_neg ho, ht, if_true]

theorem takeoverRule_tagMismatch {o : Channel} (hc : c.owner = some o) (ho : o ≠ ch) (ht : c.tag ≠ tag) :
    takeoverRule ch tag now c = .abort c .tagMismatch := by
  simp only [takeoverRule, hc, if_neg ho, if_neg ht]

end Rules

/-! ### A decided request carried out -/

section Decided

variable {s : State} {ch : Channel} {q : Request} {h : Handed} {r : Resource}

/-- The reply of an aborted claim request (R179, R188). -/
def Reply.aborted (reason : AbortReason) (owner : Option Channel) : Reply :=
  { status := .abort, clamped := false, overflow := false, requested := 0
    data := [word reason.code, word (ownerCode owner)] }

/-- An aborted request changes no record and names the owner. -/
theorem claimDecided_abort {reason : AbortReason} {o : Option Channel} (hr : reason ≠ .none)
    (ho : (s.claim r).owner = o) :
    (s.taken ch q).claimDecided h r (.abort (s.claim r) reason) = s.served ch q h (.aborted reason o) := by
  have hreply : (ClaimResult.abort (s.claim r) reason).reply = .aborted reason o := by
    simp only [ClaimResult.reply, ClaimResult.abort, Reply.aborted, hr, if_false, ho]
  have hrecord : (s.taken ch q).setClaim r (s.claim r) = s.taken ch q := by rw [← claim_taken s ch q, setClaim_claim]
  rw [State.claimDecided, hreply]
  exact congrArg (State.answer · h _) hrecord

/-- An accepted request leaves its record and names its owner. -/
theorem claimDecided_accept (c : Claim) :
    (s.taken ch q).claimDecided h r (.accept c) =
      (s.served ch q h (.ok [0, word (ownerCode c.owner)])).setClaim r c := by
  cases r <;> rfl

/-- An accepted request that leaves the record as it was. -/
theorem claimDecided_accept_same {o : Option Channel} (ho : (s.claim r).owner = o) :
    (s.taken ch q).claimDecided h r (.accept (s.claim r)) = s.served ch q h (.ok [0, word (ownerCode o)]) := by
  rw [claimDecided_accept, ho]
  exact setClaim_claim (s.served ch q h _) r

/-- A record taken over is reported to the former owner's home queue. -/
theorem claimDecided_takenOver (c : Claim) (o : Channel) :
    (s.taken ch q).claimDecided h r ⟨.none, c, some o⟩ =
      ((s.served ch q h (.ok [0, word (ownerCode c.owner)])).setClaim r c).post
        (PerChannel.get s.homes o) (.claimLost r o .takenOver) := by
  cases r <;> rfl

end Decided

/-! ### An entitled request -/

/-- The channel offers a claim request that passes the tests of R142 and R143: its view is PRESENT, no presence loss came
after the handing over, the permit lets it through and its modifier names a resource. -/
structure State.entitled (s : State) (ch : Channel) (q : Request) (openToObserve : Bool) (h : Handed) (r : Resource) :
    Prop where
  offered : s.offers ch q h
  present : PerChannel.get s.views ch = true
  notLost : h.lost = false
  permitted : PerChannel.get s.straps.permits ch = .full ∨ openToObserve = true
  named : resource? h.selector = some r

section Entitled

variable {s : State} {ch : Channel} {q : Request} {h : Handed} {r : Resource}

/-- An entitled request is decided by its rule. -/
theorem serve_claimRequest {openToObserve : Bool} (ha : s.entitled ch q openToObserve h r)
    (rule : Handed → State → Claim → ClaimResult) :
    serve s ch q (fun h s => s.claimRequest h openToObserve (rule h s)) =
      .next ((s.taken ch q).claimDecided h r (rule h (s.taken ch q) (s.claim r))) := by
  have hch : h.channel = ch := offers_channel ha.offered
  have hview : (PerChannel.get (s.taken ch q).views h.channel && !h.lost) = true := by
    rw [hch, ha.notLost]
    exact congrArg (· && true) ha.present
  have hpermit : ¬ (PerChannel.get (s.taken ch q).straps.permits h.channel = .observe ∧ openToObserve = false) := by
    rw [hch]
    rintro ⟨hobserve, hclosed⟩
    obtain hfull | hopen := ha.permitted
    · exact Permit.noConfusion (hfull.symm.trans hobserve)
    · exact Bool.noConfusion (hopen.symm.trans hclosed)
  rw [serve_offers ha.offered, State.claimRequest, if_pos hview, State.claimChecked, if_neg hpermit]
  simp only [ha.named, claim_taken]

theorem exec_claim_entitled (ha : s.entitled ch .claim false h r) : exec (.claim ch) s =
    .next ((s.taken ch .claim).claimDecided h r (claimRule ch (h.params.getD 0 0) s.epoch (s.claim r))) := by
  rw [← word_word]
  exact serve_claimRequest ha fun h s => claimRule ch (word (h.word 0)) s.epoch

theorem exec_claimIfClean_entitled (ha : s.entitled ch .claimIfClean false h r) : exec (.claimIfClean ch) s =
    .next ((s.taken ch .claimIfClean).claimDecided h r
      (claimIfCleanRule s.alarms.unclean ch (h.params.getD 0 0) s.epoch (s.claim r))) := by
  rw [← word_word]
  exact serve_claimRequest ha fun h s => claimIfCleanRule s.alarms.unclean ch (word (h.word 0)) s.epoch

theorem exec_check_entitled (ha : s.entitled ch .check true h r) : exec (.check ch) s =
    .next ((s.taken ch .check).claimDecided h r (checkRule ch (h.params.getD 0 0) (s.claim r))) := by
  rw [← word_word]
  exact serve_claimRequest ha fun h _ => checkRule ch (word (h.word 0))

theorem exec_takeover_entitled (ha : s.entitled ch .takeover false h r) : exec (.takeover ch) s =
    .next ((s.taken ch .takeover).claimDecided h r (takeoverRule ch (h.params.getD 0 0) s.epoch (s.claim r))) := by
  rw [← word_word]
  exact serve_claimRequest ha fun h s => takeoverRule ch (word (h.word 0)) s.epoch

theorem exec_release_entitled (ha : s.entitled ch .release false h r) : exec (.release ch) s =
    .next ((s.taken ch .release).claimDecided h r (releaseRule ch s.epoch (s.claim r))) :=
  serve_claimRequest ha fun _ s => releaseRule ch s.epoch

/-- CLAIM is CLAIM_IF_CLEAN that does not look at the summary. -/
theorem exec_claiming_entitled {c : Instr}
    (hc : (c, q) ∈ [(Instr.claim ch, Request.claim), (.claimIfClean ch, .claimIfClean)])
    (ha : s.entitled ch q false h r) : exec c s = .next ((s.taken ch q).claimDecided h r
      (claimIfCleanRule (decide (q = .claimIfClean) && s.alarms.unclean) ch (h.params.getD 0 0) s.epoch
        (s.claim r))) := by
  simp only [List.mem_cons, List.not_mem_nil, or_false, Prod.mk.injEq] at hc
  obtain ⟨rfl, rfl⟩ | ⟨rfl, rfl⟩ := hc
  · exact (exec_claim_entitled ha).trans (by rw [← claimIfCleanRule_clean]; rfl)
  · exact exec_claimIfClean_entitled ha

end Entitled

/-! ### The statements -/

/-- Settles O14: both requests are one rule, which the owner of the record and the alarm summary decide. -/
theorem claimGrantsFreeResource : Obligations.ClaimGrantsFreeResource := by
  intro s ch c req h r hc hs hview hlost hpermit hr tag clean
  have hexec := exec_claiming_entitled hc ⟨hs, hview, hlost, .inl hpermit, hr⟩
  have hlooks : req = .claimIfClean → ¬ clean → (decide (req = .claimIfClean) && s.alarms.unclean) = true :=
    fun hreq hdirty => Bool.and_eq_true_iff.mpr
      ⟨decide_eq_true hreq, Bool.not_eq_false _ ▸ mt unclean_eq_false_iff.mp hdirty⟩
  have hpasses : req = .claim ∨ clean → (decide (req = .claimIfClean) && s.alarms.unclean) = false := by
    rintro (rfl | hclean)
    · rfl
    · rw [unclean_eq_false_iff.mpr hclean, Bool.and_false]
  refine ⟨fun o ho hne => ?held, fun hreq hdirty ho => ?notClean, fun hgo ho => ?free, fun hgo ho => ?own⟩
  case held =>
    rw [hexec, claimIfCleanRule_held ho hne, claimDecided_abort (by decide) ho]
    rfl
  case notClean =>
    rw [hexec, hlooks hreq hdirty, claimIfCleanRule_unclean ho, claimDecided_abort (by decide) rfl]
    rfl
  case free =>
    rw [hexec, hpasses hgo, claimIfCleanRule_clean, claimRule_free ho, claimDecided_accept]
    rfl
  case own =>
    rw [hexec, hpasses hgo, claimIfCleanRule_clean, claimRule_own ho, claimDecided_accept]
    rfl

/-- Settles O15: CHECK leaves the record in each of its three cases, and RELEASE frees it for its owner alone. -/
theorem checkAndReleaseAskTheOwner : Obligations.CheckAndReleaseAskTheOwner := by
  refine ⟨fun s ch h r hs hview hlost hr => ?check, fun s ch h r hs hview hlost hpermit hr => ?release⟩
  case check =>
    have hexec := exec_check_entitled ⟨hs, hview, hlost, .inr rfl, hr⟩
    refine ⟨fun ho ht => ?accept, fun ho => ?notOwner, fun ho ht => ?tagMismatch⟩
    case accept =>
      rw [hexec, checkRule_accept ho ht, claimDecided_accept_same ho]
      rfl
    case notOwner =>
      rw [hexec, checkRule_notOwner ho, claimDecided_abort (by decide) rfl]
      rfl
    case tagMismatch =>
      rw [hexec, checkRule_tagMismatch ho ht, claimDecided_abort (by decide) ho]
      rfl
  case release =>
    have hexec := exec_release_entitled ⟨hs, hview, hlost, .inl hpermit, hr⟩
    refine ⟨fun ho => ?accept, fun ho => ?notOwner⟩
    case accept =>
      rw [hexec, releaseRule_accept ho, claimDecided_accept]
      rfl
    case notOwner =>
      rw [hexec, releaseRule_notOwner ho, claimDecided_abort (by decide) rfl]
      rfl

/-- Settles O16, by the owner of the record and, for another owner, its tag. -/
theorem takeoverNeedsTheTag : Obligations.TakeoverNeedsTheTag := by
  intro s ch h r hs hview hlost hpermit hr tag
  have hexec := exec_takeover_entitled ⟨hs, hview, hlost, .inl hpermit, hr⟩
  refine ⟨fun ho => ?notHeld, fun ho => ?own, fun o ho hne ht => ?takes, fun o ho hne ht => ?tagMismatch⟩
  case notHeld =>
    rw [hexec, takeoverRule_notHeld ho, claimDecided_abort (by decide) ho]
    rfl
  case own =>
    rw [hexec, takeoverRule_own ho, claimDecided_accept_same ho]
    rfl
  case takes =>
    rw [hexec, takeoverRule_takes ho hne ht, claimDecided_takenOver]
    rfl
  case tagMismatch =>
    rw [hexec, takeoverRule_tagMismatch ho hne ht, claimDecided_abort (by decide) ho]
    rfl

end Sys2Proof.Machine
end

section
/-! SUPPORT. ACK_ALARM: what its tests say, what a cleared item leaves in the summary, and the statement about the request
assembled from them. -/

namespace Sys2Proof.Machine

/-! ### The items -/

theorem item?_isNone {a : Alarms} {p : Pair} {n : Nat} : (a.item? p n).isNone = true ↔ 2 < n := by
  match n with
  | 0 | 1 | 2 => simp [Alarms.item?]
  | n + 3 => simp [Alarms.item?]

/-- Of the VERDICT items, that of the named pair alone becomes clear (R154). -/
theorem verdict_clearItem_zero (a : Alarms) (p q : Pair) :
    (a.clearItem p 0).verdict.getLsbD q.val = (decide (q ≠ p) && a.verdict.getLsbD q.val) := by
  have hpair : (p.val = q.val) = (q = p) := propext ⟨fun e => Fin.ext e.symm, fun e => congrArg Fin.val e.symm⟩
  simp only [Alarms.clearItem, BitVec.getLsbD_and, BitVec.getLsbD_not, BitVec.getLsbD_twoPow, q.isLt, p.isLt,
    decide_true, Bool.true_and, hpair, ne_eq, decide_not, Bool.and_comm]

/-! ### The request -/

theorem ackOutside_iff {s : State} {ch : Channel} {h : Handed} :
    (((s.taken ch .ackAlarm).alarms.item? h.selector (h.word 0)).isNone ||
        decide (h.word 0 = 0) && !(s.taken ch .ackAlarm).fitted h.selector) = true ↔
      2 < h.word 0 ∨ h.word 0 = 0 ∧ s.notFitted h.selector := by
  have hfitted : (!(s.taken ch .ackAlarm).fitted h.selector) = true ↔ s.notFitted h.selector := unfitted_taken
  simp only [Bool.or_eq_true, Bool.and_eq_true, decide_eq_true_eq, item?_isNone, hfitted]

theorem observes_iff {s : State} {ch : Channel} {r : Request} {h : Handed} (hc : h.channel = ch) :
    decide (PerChannel.get (s.taken ch r).straps.permits h.channel = .observe) = true ↔
      PerChannel.get s.straps.permits ch = .observe := by
  rw [decide_eq_true_iff, hc]
  exact Iff.rfl

/-- The item of the summary that the request names becomes clear and the reply says whether it was set (R154). -/
def State.acknowledged (s : State) (ch : Channel) (h : Handed) (n : Nat) : State :=
  { s.served ch .ackAlarm h (.ok [word ((s.alarms.item? h.selector n).getD false).toNat]) with
    alarms := s.alarms.clearItem h.selector n }

/-- A request that is offered is taken, then decided by its checks. -/
theorem exec_ackAlarm_offers {s : State} {ch : Channel} {h : Handed} (hs : s.offers ch .ackAlarm h) :
    exec (.ackAlarm ch) s = .next ((s.taken ch .ackAlarm).decided h
      [(decide (PerChannel.get (s.taken ch .ackAlarm).straps.permits h.channel = .observe), .notPermitted),
       (((s.taken ch .ackAlarm).alarms.item? h.selector (h.word 0)).isNone ||
          decide (h.word 0 = 0) && !(s.taken ch .ackAlarm).fitted h.selector, .outOfRange)]
      (s.acknowledged ch h (h.word 0))) := serve_offers hs fun h s => s.ackAlarm h

/-- Settles O17: each test of the request says its condition, and the answered request clears one item. -/
theorem ackAlarmClearsOneItem : Obligations.AckAlarmClearsOneItem := by
  intro s ch h hs n p
  refine judged_intro (exec_ackAlarm_offers hs) ?checks fun _ => ?done
  case checks => exact .cons ⟨observes_iff (offers_channel hs), rfl⟩ (.cons ⟨ackOutside_iff, rfl⟩ .nil)
  case done =>
    refine ⟨fun (hn : h.word 0 = 0) => ?verdict, fun (hn : h.word 0 = 1) => ?selectorFault,
      fun (hn : h.word 0 = 2) => ?receiverLos⟩
    case verdict =>
      rw [hn]
      exact ⟨rfl, verdict_clearItem_zero s.alarms p⟩
    case selectorFault =>
      rw [hn]
      rfl
    case receiverLos =>
      rw [hn]
      rfl

end Sys2Proof.Machine
end

section
/-! SUPPORT. What every step keeps, said once: `State.Acts s t` holds between the state before and after every part of a
command, and says that each property of Safety.lean has been kept. The lemmas here build it from what a part changes. -/

namespace Sys2Proof.Machine

/-- From `s` to `t` every property that each step keeps has been kept, and the waiting commands left alone. -/
structure State.Keeps (s t : State) : Prop where
  pending : t.pending = s.pending
  canonical : s.memoriesCanonical → t.memoriesCanonical
  reports : s.reportsBounded → t.reportsBounded
  work : s.workBounded → t.workBounded
  owners : s.ownersPresent → t.ownersPresent
  line : s.lineConsistent → t.lineConsistent
  isolation : s.isolationFollows → t.isolationFollows
  centres : s.centresLegal → t.centresLegal

/-- What a part of a command does that neither resets the part nor ends a millisecond. -/
structure State.Acts (s t : State) : Prop extends State.Keeps s t where
  epoch : t.epoch = s.epoch

theorem State.Keeps.trans {s t u : State} (h : s.Keeps t) (k : t.Keeps u) : s.Keeps u where
  pending := k.pending.trans h.pending
  canonical := k.canonical ∘ h.canonical
  reports := k.reports ∘ h.reports
  work := k.work ∘ h.work
  owners := k.owners ∘ h.owners
  line := k.line ∘ h.line
  isolation := k.isolation ∘ h.isolation
  centres := k.centres ∘ h.centres

namespace State.Acts

variable {s t u : State}

theorem refl (s : State) : s.Acts s := ⟨⟨rfl, id, id, id, id, id, id, id⟩, rfl⟩

theorem trans (h : s.Acts t) (k : t.Acts u) : s.Acts u := ⟨h.toKeeps.trans k.toKeeps, k.epoch.trans h.epoch⟩

/-- `trans` with the later part first. -/
theorem after (k : t.Acts u) (h : s.Acts t) : s.Acts u := h.trans k

theorem ite {b : Prop} [Decidable b] (h : b → s.Acts t) (k : ¬ b → s.Acts u) : s.Acts (if b then t else u) := by
  split
  · next hb => exact h hb
  · next hb => exact k hb

end State.Acts

/-! ### The client side -/

/-- `s` with the pins, the client side and the report queues of `u`. -/
def State.withClient (s u : State) : State :=
  { s with
    presenceLine := u.presenceLine, losInput := u.losInput, channels := u.channels, handed := u.handed
    answers := u.answers, deferred := u.deferred, views := u.views, lineClaim := u.lineClaim
    tablesClaim := u.tablesClaim, alarms := u.alarms, queues := u.queues, homes := u.homes }

/-- A part that changes the client side alone. -/
theorem State.Acts.client {s t : State} (e : t = s.withClient t) (reports : s.reportsBounded → t.reportsBounded)
    (owners : s.ownersPresent → t.ownersPresent) : s.Acts t where
  pending := (congrArg State.pending e).trans rfl
  canonical h := e ▸ (show (s.withClient t).memoriesCanonical from h)
  reports := reports
  work h := e ▸ (show (s.withClient t).workBounded from h)
  owners := owners
  line h := e ▸ (show (s.withClient t).lineConsistent from h)
  isolation h := e ▸ (show (s.withClient t).isolationFollows from h)
  centres h := e ▸ (show (s.withClient t).centresLegal from h)
  epoch := (congrArg State.epoch e).trans rfl

theorem State.Acts.taken (s : State) (ch : Channel) (r : Request) : s.Acts (s.taken ch r) := .client rfl id id

theorem State.Acts.answer (s : State) (h : Handed) (r : Reply) : s.Acts (s.answer h r) := .client rfl id id

/-! ### The tables -/

/-- `s` with the Line Setup and the tables of `u`. -/
def State.withTables (s u : State) : State :=
  { s with
    lineSetup := u.lineSetup, housings := u.housings, templates := u.templates, watchPoints := u.watchPoints
    policies := u.policies }

/-- A part that changes the tables alone. -/
theorem State.Acts.tables {s t u : State} (e : t = s.withTables u) (canonical : s.memoriesCanonical → t.memoriesCanonical)
    (centres : s.centresLegal → t.centresLegal) : s.Acts t where
  pending := (congrArg State.pending e).trans rfl
  canonical := canonical
  reports h := e ▸ (show (s.withTables u).reportsBounded from h)
  work h := e ▸ (show (s.withTables u).workBounded from h)
  owners h := e ▸ (show (s.withTables u).ownersPresent from h)
  line h := e ▸ (show (s.withTables u).lineConsistent from h)
  isolation h := e ▸ (show (s.withTables u).isolationFollows from h)
  centres := centres
  epoch := (congrArg State.epoch e).trans rfl

/-! ### The line side -/

/-- `c` is the current work of `s`, perhaps in another state. -/
def State.carries (s : State) (c : Current) : Prop := ∃ b, s.current = some b ∧ c.work = b.work ∧ c.len = b.len

/-- The segments in use, and the current work, are of housings of the table (R38, R60). -/
def State.segmentsLegal (s : State) : Prop :=
  (∀ c, s.current = some c → c.work.housing ≤ 192) ∧ (∀ g ∈ s.allocation, g.housing ≤ 192) ∧
  ∀ e, s.evaluation = some e → ∀ g ∈ e.remaining, g.housing ≤ 192

/-- Line work that goes on, or ends: the current work changes its state at most, and no segment is of another housing. -/
structure State.Run (s t : State) : Prop extends State.LineStep s t where
  same : ∀ c, t.current = some c → s.carries c
  segments : s.segmentsLegal → t.segmentsLegal

theorem State.carries.trans {s t : State} {c : Current} (h : ∀ b, t.current = some b → s.carries b) (k : t.carries c) :
    s.carries c := by
  obtain ⟨b, hb, hw, hl⟩ := k
  obtain ⟨a, ha, hw', hl'⟩ := h b hb
  exact ⟨a, ha, hw.trans hw', hl.trans hl'⟩

theorem State.carries_self {s : State} {c : Current} (h : s.current = some c) : s.carries c := ⟨c, h, rfl, rfl⟩

namespace State.Run

variable {s t u : State}

theorem refl (s : State) : s.Run s := ⟨.refl s, fun _ => carries_self, id⟩

theorem trans (h : s.Run t) (k : t.Run u) : s.Run u where
  toLineStep := h.toLineStep.trans k.toLineStep
  same c hc := (k.same c hc).trans h.same
  segments := k.segments ∘ h.segments

theorem after (k : t.Run u) (h : s.Run t) : s.Run u := h.trans k

/-- A line step whose work is that of before, with no new segment. -/
theorem of_subset (h : s.LineStep t) (same : ∀ c, t.current = some c → s.carries c)
    (alloc : t.allocation ⊆ s.allocation)
    (eval : ∀ e, t.evaluation = some e → ∃ f, s.evaluation = some f ∧ e.remaining ⊆ f.remaining) : s.Run t where
  toLineStep := h
  same := same
  segments := by
    rintro ⟨hw, ha, he⟩
    refine ⟨fun c hc => ?_, fun g hg => ha g (alloc hg), fun e hte g hg => ?_⟩
    · obtain ⟨b, hb, e, -⟩ := same c hc
      exact e ▸ hw b hb
    · obtain ⟨f, hf, hsub⟩ := eval e hte
      exact he f hf g (hsub hg)

/-- A line step that leaves the work and its segments. -/
theorem of_same (h : s.LineStep t) (hc : t.current = s.current) (ha : t.allocation = s.allocation)
    (he : t.evaluation = s.evaluation) : s.Run t :=
  of_subset h (fun _ h => carries_self (hc ▸ h)) (ha ▸ List.Subset.refl _)
    fun e h => ⟨e, he ▸ h, List.Subset.refl _⟩

/-- A line step that ends the work. -/
theorem of_rests (h : s.LineStep t) (hr : t.lineRests) : s.Run t := by
  obtain ⟨hc, ha, -, -, -, -, he⟩ := hr
  refine of_subset h (fun c h => ?_) (by simp [ha]) fun e h => ?_
  · rw [hc] at h; cases h
  · rw [he] at h; cases h

end State.Run

/-! ### What line work keeps -/

theorem isolates_congr {s t : State} {w : Work} (h : (t.verdict w.pair).confirmed = (s.verdict w.pair).confirmed)
    (k : s.isolates w) : t.isolates w := by
  obtain ⟨ho, n, hk, hv⟩ := k
  exact ⟨ho, n, hk, h.trans hv⟩

theorem State.Run.workBounded {s t : State} (h : s.Run t) (k : s.workBounded) : t.workBounded := by
  obtain ⟨hlen, hpairs, htags⟩ := k
  refine ⟨h.workQueue ▸ hlen, h.isolationQueue ▸ hpairs, htags.sublist ?_⟩
  unfold State.heldTags
  rw [h.workQueue, h.isolationQueue]
  refine List.Sublist.append_left ?_ _
  cases hc : t.current with
  | none => exact List.nil_sublist _
  | some c =>
    obtain ⟨b, hb, e, -⟩ := h.same c hc
    simp [hb, e]

theorem State.Run.isolationFollows {s t : State} (h : s.Run t) (line : s.lineConsistent → t.lineConsistent)
    (k : s.isolationFollows) : t.isolationFollows := by
  obtain ⟨hline, hone, hwork, hiso, hcur, hsweep⟩ := k
  have carry (w : Work) : s.isolates w → t.isolates w := isolates_congr (h.leads _).2
  refine ⟨line hline, h.isolationQueue ▸ hone, h.workQueue ▸ hwork, fun w hw => carry w (hiso w (h.isolationQueue ▸ hw)),
    fun c hc ho => ?_, fun c hc hs w hw => ?_⟩
  · obtain ⟨b, hb, e, -⟩ := h.same c hc
    rw [e] at ho ⊢
    exact carry _ (hcur b hb ho)
  · obtain ⟨b, hb, e, -⟩ := h.same c hc
    rw [e] at hs ⊢
    exact hsweep b hb hs w (h.isolationQueue ▸ hw)

theorem State.LineStep.template {s t : State} (h : s.LineStep t) (n : Nat) : t.template n = s.template n := by
  unfold State.template; rw [h.templates]

theorem State.LineStep.housing {s t : State} (h : s.LineStep t) (n : Nat) : t.housing n = s.housing n := by
  unfold State.housing; rw [h.housings]

theorem State.LineStep.policy {s t : State} (h : s.LineStep t) (p : Pair) : t.policy p = s.policy p := by
  unfold State.policy; rw [h.policies]

theorem State.LineStep.len {s t : State} (h : s.LineStep t) : t.len = s.len := by
  unfold State.len; rw [h.lineSetup]

theorem State.LineStep.tablesLegal {s t : State} (h : s.LineStep t) (k : s.tablesLegal) : t.tablesLegal := by
  obtain ⟨hl, ht, hp⟩ := k
  exact ⟨h.lineSetup ▸ hl, fun n hn => h.template n ▸ ht n hn, fun p => h.policy p ▸ hp p⟩

theorem State.LineStep.housingsLegal {s t : State} (h : s.LineStep t) (k : s.housingsLegal) : t.housingsLegal := by
  unfold State.housingsLegal at *
  simpa only [h.housing, h.len, h.lineSetup] using k

theorem State.LineStep.centreLegal {s t : State} (h : s.LineStep t) {p : Pair} {n : Nat} (k : s.centreLegal p n) :
    t.centreLegal p n := by
  obtain ⟨htemplate, hcentre, -⟩ := h.setup (wpKey p n)
  have ht : (t.wp p n).template = (s.wp p n).template := htemplate
  have hc : (t.wp p n).centre = (s.wp p n).centre := hcentre
  unfold State.centreLegal State.widthOf State.nominalLag at *
  simpa only [ht, hc, h.housing, h.len, h.lineSetup, h.template] using k

theorem State.Run.centresLegal {s t : State} (h : s.Run t) (k : s.centresLegal) : t.centresLegal := by
  obtain ⟨htables, hhousings, ⟨hcur, hwork, hiso, halloc, heval, hleads⟩, hcentres⟩ := k
  have hsegs := h.segments ⟨fun c hc => (hcur c hc).2, halloc, heval⟩
  refine ⟨h.tablesLegal htables, h.housingsLegal hhousings,
    ⟨fun c hc => ?_, h.workQueue ▸ hwork, h.isolationQueue ▸ hiso, hsegs.2.1, hsegs.2.2, fun p => ?_⟩,
    fun p n hn => h.centreLegal (hcentres p n hn)⟩
  · obtain ⟨b, hb, -, e⟩ := h.same c hc
    exact ⟨e.trans ((hcur b hb).1.trans h.len.symm), hsegs.1 c hc⟩
  · rw [(h.leads p).1, (h.leads p).2]
    exact hleads p

/-- Line work that goes on or ends, and leaves the line side consistent. -/
theorem State.Acts.run {s t : State} (h : s.Run t) (line : s.lineConsistent → t.lineConsistent) : s.Acts t where
  pending := h.pending
  canonical := h.canonical
  reports := h.bounded
  work := h.workBounded
  owners k r ch := by
    have hc : t.claim r = s.claim r := by cases r <;> simp only [State.claim, h.lineClaim, h.tablesClaim]
    rw [hc, h.views]
    exact k r ch
  line := line
  isolation := h.isolationFollows line
  centres := h.centresLegal
  epoch := h.epoch

end Sys2Proof.Machine
end

section
/-! SUPPORT. Work on the line: the consistency of the line side said for the current work, and what the operations of
Line.lean keep. -/

namespace Sys2Proof.Machine

/-! ### Consistency said for the current work -/

/-- The line side agrees with `c` as the current work. -/
structure State.LineAt (s : State) (c : Current) : Prop where
  phase : c.state.allows c.work s.cmu.phase = true
  chip : s.chipTimer.isSome = c.state.onLine
  settle : s.settleTimer.isSome = decide (c.state = .select)
  limit : ∀ t, s.settleTimer = some t → (s.epoch - t.start).toNat ≤ t.limit
  eval : s.evaluation.isSome = decide (c.state = .evaluate)
  cells : (s.allocation.flatMap Segment.cells).Nodup

theorem onLine_of_current {s : State} {c : Current} (h : s.current = some c) : s.onLine = c.state.onLine := by
  simp only [State.onLine, h]

theorem inState_of_current {s : State} {c : Current} (h : s.current = some c) (st : LineState) :
    s.inState st = decide (c.state = st) := by
  simp only [State.inState, h, Option.map_some, Option.some.injEq]

theorem inState_of_none {s : State} (h : s.current = none) (st : LineState) : s.inState st = false := by
  simp [State.inState, h]

theorem lineConsistent_iff_lineAt {s : State} {c : Current} (h : s.current = some c) :
    s.lineConsistent ↔ s.LineAt c := by
  unfold State.lineConsistent
  rw [onLine_of_current h, inState_of_current h, inState_of_current h]
  constructor
  · rintro ⟨-, hp, hchip, hsettle, hlimit, heval, hcells⟩
    exact ⟨hp c h, hchip, hsettle, hlimit, heval, hcells⟩
  · rintro ⟨hp, hchip, hsettle, hlimit, heval, hcells⟩
    refine ⟨fun hn => ?_, fun b hb => ?_, hchip, hsettle, hlimit, heval, hcells⟩
    · rw [h] at hn; cases hn
    · rw [h] at hb; cases hb; exact hp

/-- With no current work the line side is consistent when it rests. -/
theorem lineConsistent_of_none {s : State} (h : s.current = none) (ha : s.allocation = []) (hp : s.cmu.phase = .free)
    (ht : s.chipTimer = none) (hs : s.settleTimer = none) (he : s.evaluation = none) : s.lineConsistent := by
  refine ⟨fun _ => ⟨ha, hp⟩, fun c hc => ?_, ?_, ?_, fun t htimer => ?_, ?_, ?_⟩
  · rw [h] at hc; cases hc
  · simp [State.onLine, h, ht]
  · rw [inState_of_none h, hs]; rfl
  · rw [hs] at htimer; cases htimer
  · rw [inState_of_none h, he]; rfl
  · rw [ha]; exact List.nodup_nil

theorem State.lineRests.lineConsistent {s : State} (h : s.lineRests) : s.lineConsistent := by
  obtain ⟨hc, ha, ht, hs, hu, -, he⟩ := h
  exact lineConsistent_of_none hc ha (by rw [hu]; rfl) ht hs he

/-- The line side reads these fields alone. -/
theorem lineConsistent_congr {s t : State} (hc : t.current = s.current) (ha : t.allocation = s.allocation)
    (hp : t.cmu.phase = s.cmu.phase) (ht : t.chipTimer.isSome = s.chipTimer.isSome)
    (hs : t.settleTimer = s.settleTimer) (he : t.epoch = s.epoch)
    (hv : t.evaluation.isSome = s.evaluation.isSome) (h : s.lineConsistent) : t.lineConsistent := by
  unfold State.lineConsistent State.onLine State.inState at *
  rw [hc, ha, hp, ht, hs, he, hv]
  exact h

/-! ### The settle timer and the chip timer of consistent work -/

section AtRest

variable {s : State}

theorem State.lineConsistent.of_none (h : s.lineConsistent) (hc : s.current = none) :
    s.allocation = [] ∧ s.cmu.phase = .free ∧ s.chipTimer = none ∧ s.settleTimer = none ∧ s.evaluation = none := by
  obtain ⟨hrest, -, hchip, hsettle, -, heval, -⟩ := h
  rw [inState_of_none hc, Option.isSome_eq_false_iff, Option.isNone_iff_eq_none] at hsettle heval
  simp only [State.onLine, hc, Option.isSome_eq_false_iff, Option.isNone_iff_eq_none] at hchip
  exact ⟨(hrest hc).1, (hrest hc).2, hchip, hsettle, heval⟩

theorem State.LineAt.settleTimer_eq_none {c : Current} (h : s.LineAt c) (hs : c.state ≠ .select) :
    s.settleTimer = none := by
  simpa [hs] using h.settle

theorem State.LineAt.chipTimer_eq_none {c : Current} (h : s.LineAt c) (hs : c.state.onLine = false) :
    s.chipTimer = none := by
  simpa [hs] using h.chip

theorem State.LineAt.evaluation_eq_none {c : Current} (h : s.LineAt c) (hs : c.state ≠ .evaluate) :
    s.evaluation = none := by
  simpa [hs] using h.eval

end AtRest

/-! ### The ends of line work -/

theorem sweepEnds_rests (s : State) (w : Work) (k : SweepKind) (o : WorkOutcome) (n m : Nat) :
    (s.sweepEnds w k o n m).lineRests := ⟨rfl, rfl, rfl, rfl, rfl, rfl, rfl⟩

theorem commandEnds_rests (s : State) (c : Current) (h : Nat) (op : Operation) (o : WorkOutcome) (st : Option Word)
    (tl : Option Telemetry) : (s.commandEnds c h op o st tl).lineRests := ⟨rfl, rfl, rfl, rfl, rfl, rfl, rfl⟩

theorem endWork_sweep {s : State} {c : Current} {kind : SweepKind} {periods : Nat} (hc : s.current = some c)
    (hk : c.work.kind = .sweep kind periods) (o : WorkOutcome) : s.endWork o = s.sweepEnds c.work kind o 0 0 := by
  simp only [State.endWork, hc, hk]

theorem endWork_command {s : State} {c : Current} {h : Nat} {op : Operation} {attempts : Nat} (hc : s.current = some c)
    (hk : c.work.kind = .command h op attempts) (o : WorkOutcome) :
    s.endWork o = s.commandEnds c h op o none none := by
  simp only [State.endWork, hc, hk]

theorem endWork_none {s : State} (hc : s.current = none) (o : WorkOutcome) : s.endWork o = s := by
  simp only [State.endWork, hc]

theorem endWork_rests {s : State} {c : Current} (hc : s.current = some c) (o : WorkOutcome) :
    (s.endWork o).lineRests := by
  cases hk : c.work.kind with
  | sweep kind periods => rw [endWork_sweep hc hk]; exact sweepEnds_rests ..
  | command h op attempts => rw [endWork_command hc hk]; exact commandEnds_rests ..

theorem losEnds_rests {s : State} {c : Current} (hc : s.current = some c) : s.losEnds.lineRests :=
  endWork_rests (s := s.alarmLos) hc _

theorem selectorFaultEnds_rests {s : State} {c : Current} (hc : s.current = some c) : s.selectorFaultEnds.lineRests :=
  endWork_rests (s := State.alarmSelector { s with position := none, requested := none, settleTimer := none }) hc _

theorem abort_rests {s : State} {c : Current} (hc : s.current = some c) : (s.abort c).lineRests := by
  unfold State.abort
  split
  · exact endWork_rests (s := { s with position := none, settleTimer := none }) hc _
  · split
    · exact sweepEnds_rests ..
    · exact endWork_rests hc _
  all_goals exact endWork_rests hc _

/-- Line work that ends leaves the line side at rest. -/
theorem State.Acts.rests {s t : State} (h : s.LineStep t) (hr : t.lineRests) : s.Acts t :=
  .run (.of_rests h hr) fun _ => hr.lineConsistent

theorem State.Acts.endWork {s : State} (o : WorkOutcome) : s.Acts (s.endWork o) := by
  cases hc : s.current with
  | none => rw [endWork_none hc]; exact .refl s
  | some c => exact .rests (.endWork o) (endWork_rests hc o)

theorem State.Acts.abort {s : State} {c : Current} (hc : s.current = some c) : s.Acts (s.abort c) :=
  .rests (.abort c) (abort_rests hc)

theorem State.Acts.settleEnds (s : State) : s.Acts s.settleEnds := by
  unfold State.settleEnds
  refine .ite (fun hs => ?_) fun _ => .refl s
  have hsel : s.inState .select = true := (Bool.and_eq_true_iff.mp hs).1
  cases hc : s.current with
  | none => rw [inState_of_none hc] at hsel; cases hsel
  | some c => exact .rests .selectorFaultEnds (selectorFaultEnds_rests hc)

/-! ### Into the line -/

/-- What entering the line leaves: the work at rest after a loss of signal, or `c` in the state it entered. -/
inductive State.Entered (s : State) (c : Current) : State → Prop
  | lost {t : State} (rests : t.lineRests) : Entered s c t
  | sweep {t : State} (isSweep : c.work.isCommand = false) (current : t.current = some { c with state := .settle })
      (phase : t.cmu.phase = s.cmu.phase) (chip : t.chipTimer = some ⟨0, 0⟩) (settle : t.settleTimer = s.settleTimer)
      (eval : t.evaluation = s.evaluation) (alloc : t.allocation = s.allocation) : Entered s c t
  | command {t : State} (isCommand : c.work.isCommand = true) (current : t.current = some { c with state := .commandTx })
      (phase : t.cmu.phase = .frame) (chip : t.chipTimer = some ⟨0, 0⟩) (settle : t.settleTimer = s.settleTimer)
      (eval : t.evaluation = s.evaluation) (alloc : t.allocation = s.allocation) : Entered s c t

theorem enterSettle_entered (s : State) {c : Current} (hw : c.work.isCommand = false) :
    s.Entered c (s.enterSettle c) := by
  unfold State.enterSettle
  dsimp only
  split
  · exact .lost (losEnds_rests (c := { c with state := .settle }) rfl)
  · exact .sweep hw rfl rfl rfl rfl rfl rfl

theorem enterTx_entered (s : State) {c : Current} (hw : c.work.isCommand = true) : s.Entered c (s.enterTx c) := by
  unfold State.enterTx
  dsimp only
  split
  · exact .lost (losEnds_rests (c := { c with state := .commandTx }) rfl)
  · exact .command hw rfl rfl rfl rfl rfl rfl

theorem enterLine_sweep (s : State) {c : Current} (hw : c.work.isCommand = false) :
    s.enterLine c = s.enterSettle c := by
  unfold State.enterLine
  cases hk : c.work.kind with
  | sweep kind periods => rfl
  | command h op attempts => simp [Work.isCommand, hk] at hw

theorem enterLine_command (s : State) {c : Current} (hw : c.work.isCommand = true) :
    s.enterLine c = s.enterTx c := by
  unfold State.enterLine
  cases hk : c.work.kind with
  | sweep kind periods => simp [Work.isCommand, hk] at hw
  | command h op attempts => rfl

theorem enterLine_entered (s : State) (c : Current) : s.Entered c (s.enterLine c) := by
  cases hw : c.work.isCommand with
  | false => rw [enterLine_sweep s hw]; exact enterSettle_entered s hw
  | true => rw [enterLine_command s hw]; exact enterTx_entered s hw

/-- Work that enters the line from a state with no settle timer and no evaluation. -/
theorem State.Entered.lineConsistent {s t : State} {c : Current} (h : s.Entered c t) (hs : s.settleTimer = none)
    (he : s.evaluation = none) (hp : c.work.isCommand = false → s.cmu.phase = .free)
    (hn : (s.allocation.flatMap Segment.cells).Nodup) : t.lineConsistent := by
  cases h with
  | lost rests => exact rests.lineConsistent
  | sweep isSweep current phase chip settle eval alloc =>
    refine (lineConsistent_iff_lineAt current).mpr ⟨?_, by rw [chip]; rfl, by rw [settle, hs]; rfl, fun x hx => ?_,
      by rw [eval, he]; rfl, alloc ▸ hn⟩
    · simp [LineState.allows, isSweep, phase, hp isSweep]
    · rw [settle, hs] at hx; cases hx
  | command isCommand current phase chip settle eval alloc =>
    refine (lineConsistent_iff_lineAt current).mpr ⟨?_, by rw [chip]; rfl, by rw [settle, hs]; rfl, fun x hx => ?_,
      by rw [eval, he]; rfl, alloc ▸ hn⟩
    · simp [LineState.allows, isCommand, phase]
    · rw [settle, hs] at hx; cases hx

theorem State.Entered.run {s t : State} {c : Current} (h : s.Entered c t) (hc : s.carries c) (hl : s.LineStep t) :
    s.Run t := by
  obtain ⟨b, hb, hw, hlen⟩ := hc
  have carried {u : State} {st : LineState} (hu : u.current = some { c with state := st }) :
      ∀ x, u.current = some x → s.carries x := by
    intro x hx
    rw [hu] at hx
    cases hx
    exact ⟨b, hb, hw, hlen⟩
  cases h with
  | lost rests => exact .of_rests hl rests
  | sweep _ current _ _ _ eval alloc =>
    exact .of_subset hl (carried current) (alloc ▸ List.Subset.refl _) fun e he => ⟨e, eval ▸ he, List.Subset.refl _⟩
  | command _ current _ _ _ eval alloc =>
    exact .of_subset hl (carried current) (alloc ▸ List.Subset.refl _) fun e he => ⟨e, eval ▸ he, List.Subset.refl _⟩

/-- Work before the line or on it has no evaluation, and a sweep leaves the Command Unit free. -/
theorem allows_sweep {st : LineState} {w : Work} {phase : CommandPhase} (h : st.allows w phase = true)
    (hw : w.isCommand = false) : phase = .free := by
  cases st <;> simp [LineState.allows, hw] at h <;> exact h

/-- A command on the line starts a further attempt. -/
theorem State.Acts.enterTx {s : State} {c : Current} (hc : s.current = some c) (hw : c.work.isCommand = true)
    (hsel : c.state ≠ .select) (heval : c.state ≠ .evaluate) : s.Acts (s.enterTx c) :=
  .run ((enterTx_entered s hw).run (carries_self hc) (.enterTx c)) fun h => by
    have at' := (lineConsistent_iff_lineAt hc).mp h
    exact (enterTx_entered s hw).lineConsistent (at'.settleTimer_eq_none hsel) (at'.evaluation_eq_none heval)
      (fun h => by rw [hw] at h; cases h) at'.cells

/-- A confirm in SELECT. -/
theorem State.Acts.confirmed {s : State} {c : Current} (hc : s.current = some c) (hsel : c.state = .select) :
    s.Acts (s.confirmed c) := by
  let u : State := { s with settleTimer := none, position := some c.work.pair }
  have hu : s.Run u := .of_same (.path rfl id) rfl rfl rfl
  have he : u.Entered c (s.confirmed c) := enterLine_entered u c
  refine .run (hu.trans (he.run (carries_self hc) (.enterLine c))) fun h => ?_
  have at' := (lineConsistent_iff_lineAt hc).mp h
  exact he.lineConsistent rfl (at'.evaluation_eq_none (by simp [hsel])) (allows_sweep at'.phase) at'.cells

/-! ### Selection -/

/-- The state in which selection leaves a request that is not confirmed at once (R8). -/
def State.requesting (s : State) (c : Current) : State :=
  { s with requested := some c.work.pair, settleTimer := some ⟨s.epoch, s.lineSetup.settle⟩
           current := some { c with state := .select } }

theorem requesting_run {s : State} {c : Current} (hc : s.carries c) : s.Run (s.requesting c) :=
  .of_subset (.path rfl id) (fun x hx => by cases hx; exact hc) (List.Subset.refl _)
    fun e he => ⟨e, he, List.Subset.refl _⟩

/-- Work in START_CHECKS whose checks have passed goes on to its pair. -/
theorem selection_run {s : State} {c : Current} (hc : s.carries c) : s.Run (s.selection c) := by
  unfold State.selection
  split
  · exact (enterLine_entered s c).run hc (.enterLine c)
  · change s.Run (if s.confirmInput = some c.work.pair then (s.requesting c).confirmed c else s.requesting c)
    split
    · let u : State := { s.requesting c with settleTimer := none, position := some c.work.pair }
      have hu : s.Run u := (requesting_run hc).trans (.of_same (.path rfl id) rfl rfl rfl)
      have hcu : u.carries c := ⟨{ c with state := .select }, rfl, rfl, rfl⟩
      exact hu.trans ((enterLine_entered u c).run hcu (.enterLine c))
    · exact requesting_run hc

theorem selection_lineConsistent {s : State} {c : Current} (hs : s.settleTimer = none) (ht : s.chipTimer = none)
    (he : s.evaluation = none) (hp : s.cmu.phase = if c.work.isCommand then .checking else .free)
    (hn : (s.allocation.flatMap Segment.cells).Nodup) : (s.selection c).lineConsistent := by
  have free (hw : c.work.isCommand = false) : s.cmu.phase = .free := by simpa [hw] using hp
  unfold State.selection
  split
  · exact (enterLine_entered s c).lineConsistent hs he free hn
  · change State.lineConsistent (if s.confirmInput = some c.work.pair then (s.requesting c).confirmed c
      else s.requesting c)
    split
    · exact (enterLine_entered { s.requesting c with settleTimer := none, position := some c.work.pair } c).lineConsistent
        rfl he free hn
    · refine (lineConsistent_iff_lineAt rfl).mpr ⟨?_, by exact congrArg Option.isSome ht, rfl, fun t h => ?_,
        by exact congrArg Option.isSome he, hn⟩
      · exact decide_eq_true hp
      · cases h
        change (s.epoch - s.epoch).toNat ≤ s.lineSetup.settle
        simp

/-! ### The start checks -/

theorem segments_first (s : State) (p : Pair) (first : Nat) (l : List Nat) :
    ∀ g ∈ s.segments p first l, first ≤ g.first ∧ g.housing ∈ l := by
  induction l generalizing first with
  | nil => intro g hg; cases hg
  | cons h rest ih =>
    intro g hg
    rw [State.segments, List.mem_cons] at hg
    obtain rfl | hg := hg
    · exact ⟨le_refl _, List.mem_cons_self⟩
    · obtain ⟨h1, h2⟩ := ih _ g hg
      exact ⟨by omega, List.mem_cons_of_mem _ h2⟩

theorem mem_segment_cells {g : Segment} {k : Nat} : k ∈ g.cells ↔ g.first ≤ k ∧ k < g.first + g.width := by
  simp only [Segment.cells, List.mem_map, List.mem_range]
  constructor
  · rintro ⟨a, ha, rfl⟩; omega
  · rintro ⟨h1, h2⟩; exact ⟨k - g.first, by omega, by omega⟩

theorem segment_cells_nodup (g : Segment) : g.cells.Nodup :=
  List.nodup_range.map fun _ _ e => Nat.add_right_cancel e

/-- Packed segments share no cell (R60). -/
theorem segments_cells_nodup (s : State) (p : Pair) (first : Nat) (l : List Nat) :
    ((s.segments p first l).flatMap Segment.cells).Nodup := by
  induction l generalizing first with
  | nil => exact List.nodup_nil
  | cons h rest ih =>
    rw [State.segments, List.flatMap_cons, List.nodup_append']
    refine ⟨segment_cells_nodup _, ih _, fun k hk hr => ?_⟩
    obtain ⟨g, hg, hkg⟩ := List.mem_flatMap.mp hr
    have hfirst := (segments_first s p _ rest g hg).1
    have hk' := mem_segment_cells.mp hk
    have hkg' := mem_segment_cells.mp hkg
    dsimp only at hk'
    omega

theorem enabledHousings_le {s : State} {p : Pair} {h : Nat} (hh : h ∈ s.enabledHousings p) : h ≤ 192 :=
  mem_allHousings.mp (List.mem_filter.mp hh).1

/-- A line step that gives the work new segments, of housings of the table. -/
theorem State.Run.allocated {s t : State} (h : s.LineStep t) (hc : t.current = s.current)
    (he : t.evaluation = s.evaluation)
    (ha : (∀ c, s.current = some c → c.work.housing ≤ 192) → ∀ g ∈ t.allocation, g.housing ≤ 192) : s.Run t where
  toLineStep := h
  same _ hb := carries_self (hc ▸ hb)
  segments := by
    rintro ⟨hw, -, hev⟩
    exact ⟨hc ▸ hw, ha hw, he ▸ hev⟩

theorem startSweepChecks_acts {s : State} {c : Current} {kind : SweepKind} {periods : Nat} (hc : s.current = some c)
    (hst : c.state = .startChecks) (hk : c.work.kind = .sweep kind periods) : s.Acts (s.startSweepChecks c kind) := by
  have hw : c.work.isCommand = false := by simp [Work.isCommand, hk]
  unfold State.startSweepChecks
  refine .ite (fun _ => .rests (.sweepEnds ..) (sweepEnds_rests ..)) fun _ =>
    .ite (fun _ => .rests (.sweepEnds ..) (sweepEnds_rests ..)) fun _ => ?_
  let u := s.allocate (s.segments c.work.pair 0 (s.enabledHousings c.work.pair))
  have hu : s.Run u := .allocated (.allocate _) rfl rfl fun _ g hg =>
    enabledHousings_le (segments_first s _ 0 _ g hg).2
  refine .run (hu.trans (selection_run (s := u) (State.carries_self hc))) fun h => ?_
  have at' := (lineConsistent_iff_lineAt hc).mp h
  refine selection_lineConsistent (s := u) (at'.settleTimer_eq_none (by simp [hst])) ?_
    (at'.evaluation_eq_none (by simp [hst])) ?_ (segments_cells_nodup ..)
  · exact at'.chipTimer_eq_none (by simp [hst, LineState.onLine])
  · rw [hw]; exact allows_sweep at'.phase hw

theorem startCommandChecks_acts {s : State} {c : Current} {n : Nat} {op : Operation} {attempts : Nat}
    (hc : s.current = some c) (hst : c.state = .startChecks) (hk : c.work.kind = .command n op attempts) :
    s.Acts (s.startCommandChecks c n op attempts) := by
  have hw : c.work.isCommand = true := by simp [Work.isCommand, hk]
  unfold State.startCommandChecks
  refine .ite (fun _ => .rests (.commandEnds ..) (commandEnds_rests ..)) fun _ =>
    .ite (fun _ => .rests (.commandEnds ..) (commandEnds_rests ..)) fun _ => ?_
  let u : State := { s with
    cmu := { s.cmu with captured := some (s.capture c.work.pair n op attempts) }
    allocation := [⟨n, s.widthOf c.work.pair n, (s.wp c.work.pair n).centre, 0⟩] }
  have hu : s.Run u := .allocated (.path rfl id) rfl rfl fun hlegal g hg => by
    obtain rfl := List.mem_singleton.mp hg
    have := hlegal c hc
    rwa [Work.housing, hk] at this
  refine .run (hu.trans (selection_run (s := u) (State.carries_self hc))) fun h => ?_
  have at' := (lineConsistent_iff_lineAt hc).mp h
  refine selection_lineConsistent (s := u) (at'.settleTimer_eq_none (by simp [hst])) ?_
    (at'.evaluation_eq_none (by simp [hst])) ?_ ?_
  · exact at'.chipTimer_eq_none (by simp [hst, LineState.onLine])
  · simpa [hst, LineState.allows] using at'.phase
  · simpa [u] using segment_cells_nodup _

theorem State.Acts.checkStart (s : State) : s.Acts s.checkStart := by
  unfold State.checkStart
  split
  · exact .refl s
  next c hc =>
    refine .ite (fun hst => ?_) fun _ => .refl s
    unfold State.startChecks
    split
    next hk => exact startSweepChecks_acts hc hst hk
    next hk => exact startCommandChecks_acts hc hst hk

/-! ### The confirm input and loss of signal -/

theorem State.Acts.positionLost (s : State) : s.Acts s.positionLost := by
  have unknown : s.Acts { s with position := none } := .run (.of_same (.path rfl id) rfl rfl rfl) id
  unfold State.positionLost
  split
  · exact unknown
  next c hc =>
    split
    case h_1 => exact unknown
    case h_2 => exact unknown
    case h_3 => exact .refl s
    all_goals exact .rests .selectorFaultEnds (selectorFaultEnds_rests hc)

theorem State.Acts.confirmShows (s : State) (input : Option Pair) : s.Acts (s.confirmShows input) := by
  let u : State := { s with confirmInput := input }
  have hu : s.Acts u := .run (.of_same (.path rfl id) rfl rfl rfl) id
  have lost (p : Pair) : s.Acts (if input = some p then u else u.positionLost) :=
    .ite (fun _ => hu) fun _ => hu.trans (.positionLost u)
  unfold State.confirmShows
  dsimp only
  split
  · exact hu
  next p _ =>
    split
    next c hc =>
      exact .ite (fun hsel => .ite (fun _ => hu.trans (.confirmed (s := u) hc hsel)) fun _ => hu) fun _ => lost p
    next => exact lost p

/-! ### Attempts -/

theorem attemptEnds_acts {s : State} {c : Current} (hc : s.current = some c) (hw : c.work.isCommand = true)
    (hsel : c.state ≠ .select) (heval : c.state ≠ .evaluate) (cap : Captured) (o : WorkOutcome) (st : Option Word)
    (tl : Option Telemetry) : s.Acts (s.attemptEnds c cap o st tl) := by
  unfold State.attemptEnds
  exact .ite (fun _ => .enterTx hc hw hsel heval) fun _ => .rests (.commandEnds ..) (commandEnds_rests ..)

end Sys2Proof.Machine
end

section
/-! SUPPORT. Queues, tags, records and Verdict Registers: what each shared operation on them keeps, with the guards under
which it does. -/

namespace Sys2Proof.Machine

/-! ### Records and status -/

/-- `s` with the records, alarms, watch points and Verdict Registers of `u`. -/
def State.withRecords (s u : State) : State :=
  { s with alarms := u.alarms, watchPoints := u.watchPoints, verdicts := u.verdicts, queues := u.queues }

/-- A line step that touches records, alarms, watch points and Verdict Registers alone. -/
theorem State.Acts.records {s t : State} (h : s.LineStep t) (e : t = s.withRecords t) : s.Acts t :=
  .run (.of_same h ((congrArg State.current e).trans rfl) ((congrArg State.allocation e).trans rfl)
    ((congrArg State.evaluation e).trans rfl)) fun k => e ▸ (show (s.withRecords t).lineConsistent from k)

namespace State.Acts

variable {s : State}

theorem post (q : RQ) (b : RecordBody) : s.Acts (s.post q b) := .records (.post q b) rfl

theorem postVerdict (p : Pair) (b : RecordBody) : s.Acts (s.postVerdict p b) := post _ _

theorem postHome (ch : Channel) (b : RecordBody) : s.Acts (s.postHome ch b) := post _ _

theorem postCancelled (w : Work) : s.Acts (s.postCancelled w) := by
  obtain ⟨q, b, e⟩ := postCancelled_eq_post s w
  rw [e]; exact post q b

theorem postCancelledAll (l : List Work) : s.Acts (s.postCancelledAll l) := by
  induction l generalizing s with
  | nil => exact refl s
  | cons w l ih => exact (postCancelled w).trans ih

theorem setStatus (p : Pair) (v : IsolationStatus) : s.Acts (s.setStatus p v) := .records (.setStatus p v) rfl

theorem alarmVerdict (p : Pair) : s.Acts (s.alarmVerdict p) := .records (.alarmVerdict p) rfl

theorem markQuarantine (p : Pair) (h d : Nat) (o : Origin) : s.Acts (s.markQuarantine p h d o) :=
  ite (fun _ => refl s) fun _ => after (postVerdict _ _) (.records (.setWp p h _ ⟨rfl, rfl, rfl⟩) rfl)

theorem unmarkQuarantine (p : Pair) (h : Nat) (o : Origin) : s.Acts (s.unmarkQuarantine p h o) :=
  ite (fun _ => refl s) fun _ => after (postVerdict _ _) (.records (.setWp p h _ ⟨rfl, rfl, rfl⟩) rfl)

theorem setAside (p : Pair) (h d : Nat) : s.Acts (s.setAside p h d) := (markQuarantine _ _ _ _).trans (setStatus _ _)

theorem postCleared (p : Pair) (cause : ClearCause) : s.Acts (s.postCleared p cause) := by
  unfold State.postCleared
  split
  · exact refl s
  · exact postVerdict _ _

end State.Acts

/-! ### Verdict Registers -/

/-- The register of a pair written, when automatic work of the pair keeps its confirmed verdict and the leads written are
housings of the table. -/
theorem State.Acts.setVerdict {s : State} (p : Pair) (v : VerdictRegister)
    (queued : s.isolationFollows → ∀ w ∈ s.isolationQueue, w.pair = p → v.confirmed = (s.verdict p).confirmed)
    (current : s.isolationFollows → ∀ c, s.current = some c → c.work.origin = .auto → c.work.pair = p →
      v.confirmed = (s.verdict p).confirmed)
    (leads : s.centresLegal → leadLegal v.candidate ∧ leadLegal v.confirmed) : s.Acts (s.setVerdict p v) where
  pending := rfl
  canonical h := by
    obtain ⟨h1, h2, h3, h4, h5, h6, h7⟩ := h
    exact ⟨h1, h2, h3, h4, h5, h6, Memory.wf_write _ _ _ h7⟩
  reports := id
  work := id
  owners := id
  line := id
  isolation h := by
    obtain ⟨hline, hone, hwork, hiso, hcur, hsweep⟩ := id h
    have carry (w : Work) (hw : w.pair = p → v.confirmed = (s.verdict p).confirmed) (k : s.isolates w) :
        (s.setVerdict p v).isolates w := by
      refine isolates_congr ?_ k
      by_cases hp : w.pair = p
      · rw [hp, verdict_setVerdict_same, hw hp]
      · rw [verdict_setVerdict_other _ _ hp]
    exact ⟨hline, hone, hwork, fun w hw => carry w (queued h w hw) (hiso w hw),
      fun c hc ho => carry c.work (current h c hc ho) (hcur c hc ho), hsweep⟩
  centres h := by
    obtain ⟨htables, hhousings, ⟨hcur, hwork, hiso, halloc, heval, hleads⟩, hcentres⟩ := id h
    refine ⟨htables, hhousings, ⟨hcur, hwork, hiso, halloc, heval, fun q => ?_⟩, hcentres⟩
    by_cases hq : q = p
    · rw [hq, verdict_setVerdict_same]; exact leads h
    · rw [verdict_setVerdict_other _ _ hq]; exact hleads q
  epoch := rfl

/-- A register written with its confirmed verdict left as it was. -/
theorem State.Acts.setVerdict_confirmed {s : State} (p : Pair) (v : VerdictRegister)
    (hv : v.confirmed = (s.verdict p).confirmed) (hc : s.centresLegal → leadLegal v.candidate) :
    s.Acts (s.setVerdict p v) :=
  .setVerdict p v (fun _ _ _ _ => hv) (fun _ _ _ _ _ => hv) fun h => ⟨hc h, by
    obtain ⟨-, -, ⟨-, -, -, -, -, hleads⟩, -⟩ := h
    rw [hv]; exact (hleads p).2⟩

theorem leadLegal_none : leadLegal none := fun _ h => nomatch h

/-! ### Work that leaves the queues -/

/-- Queued work removed. -/
theorem State.Acts.dequeue {s : State} {l m : List Work} (hl : l.Sublist s.workQueue) (hm : m.Sublist s.isolationQueue) :
    s.Acts { s with workQueue := l, isolationQueue := m } where
  pending := rfl
  canonical := id
  reports := id
  work h := by
    obtain ⟨hlen, hpairs, htags⟩ := h
    exact ⟨hl.length_le.trans hlen, hpairs.sublist (hm.map _),
      htags.sublist (((hl.map _).append (hm.map _)).append_right _)⟩
  owners := id
  line := id
  isolation h := by
    obtain ⟨hline, hone, hwork, hiso, hcur, hsweep⟩ := h
    exact ⟨hline, hm.length_le.trans hone, fun w hw => hwork w (hl.subset hw), fun w hw => hiso w (hm.subset hw), hcur,
      fun c hc hs w hw => hsweep c hc hs w (hm.subset hw)⟩
  centres h := by
    obtain ⟨htables, hhousings, ⟨hcur, hwork, hiso, halloc, heval, hleads⟩, hcentres⟩ := h
    exact ⟨htables, hhousings, ⟨hcur, fun w hw => hwork w (hl.subset hw), fun w hw => hiso w (hm.subset hw), halloc,
      heval, hleads⟩, hcentres⟩
  epoch := rfl

theorem State.Acts.withdraw {s : State} (p : Work → Bool) : s.Acts (s.withdraw p) :=
  .dequeue (List.Sublist.refl _) List.filter_sublist

/-! ### Work that joins the queues -/

/-- At most 16 entries, eight isolation entries and the current work hold tags (R38, R41). -/
theorem heldTags_length_lt {s : State} (h : s.workBounded) : s.heldTags.length < 256 := by
  obtain ⟨hlen, hpairs, -⟩ := h
  have hiso : s.isolationQueue.length ≤ 8 := by simpa using hpairs.length_le_card
  have hcur : ((s.current.map (·.work.tag)).toList).length ≤ 1 := by cases s.current <;> simp
  simp only [State.heldTags, List.length_append, List.length_map]
  omega

theorem nextTag_not_held {s : State} (h : s.workBounded) : s.nextTag ∉ s.heldTags :=
  nextTag_free s (heldTags_length_lt h)

/-- A channel's entry joins the Work Queue while there is room. -/
theorem State.Acts.enqueue {s : State} {origin : Origin} (p : Pair) {kind : WorkKind} (hroom : s.workQueue.length < 16)
    (ho : origin ≠ .auto) (hh : ∀ tag, (Work.mk tag origin p kind).housing ≤ 192) : s.Acts (s.enqueue origin p kind) where
  pending := rfl
  canonical := id
  reports := id
  work h := by
    have hnew := nextTag_not_held h
    obtain ⟨-, hpairs, htags⟩ := h
    refine ⟨?_, hpairs, ?_⟩
    · simp only [State.enqueue, List.length_append, List.length_singleton]; omega
    · have hperm : (s.enqueue origin p kind).heldTags.Perm (s.nextTag :: s.heldTags) := by
        simp only [State.heldTags, State.enqueue, List.map_append, List.append_assoc]
        exact List.perm_middle
      exact hperm.nodup_iff.mpr (List.nodup_cons.mpr ⟨hnew, htags⟩)
  owners := id
  line := id
  isolation h := by
    obtain ⟨hline, hone, hwork, hiso, hcur, hsweep⟩ := h
    refine ⟨hline, hone, fun w hw => ?_, hiso, hcur, hsweep⟩
    obtain hw | hw := List.mem_append.mp hw
    · exact hwork w hw
    · rw [List.mem_singleton.mp hw]; exact ho
  centres h := by
    obtain ⟨htables, hhousings, ⟨hcur, hwork, hiso, halloc, heval, hleads⟩, hcentres⟩ := h
    refine ⟨htables, hhousings, ⟨hcur, fun w hw => ?_, hiso, halloc, heval, hleads⟩, hcentres⟩
    obtain hw | hw := List.mem_append.mp hw
    · exact hwork w hw
    · rw [List.mem_singleton.mp hw]; exact hh _
  epoch := rfl

/-- The Localiser's entry joined to the Isolation Queue, the pair's former entry being withdrawn already (R41). -/
def State.placed (s : State) (p : Pair) (h : Nat) : State :=
  { s with isolationQueue := s.isolationQueue ++ [⟨s.nextTag, .auto, p, .command h .pumpSwap 2⟩]
           tagCounter := s.nextTag + 1 }

theorem placeIsolation_eq_placed (s : State) (p : Pair) (h : Nat) :
    s.placeIsolation p h = (s.withdraw (Work.ofPair p)).placed p h := rfl

/-- Automatic work placed for the confirmed verdict of the sweep's pair, when the pair has no entry. -/
theorem State.Acts.placed {s : State} {p : Pair} {h : Nat} (hpair : ∀ w ∈ s.isolationQueue, w.pair ≠ p)
    (hempty : s.isolationFollows → s.isolationQueue = [])
    (hverdict : (s.verdict p).confirmed = some ⟨.amplifierDegraded, h⟩)
    (hsweep : ∀ c, s.current = some c → c.work.pair = p) : s.Acts (s.placed p h) where
  pending := rfl
  canonical := id
  reports := id
  work k := by
    have hnew := nextTag_not_held k
    obtain ⟨hlen, hpairs, htags⟩ := k
    refine ⟨hlen, ?_, ?_⟩
    · simp only [State.placed, List.map_append, List.map_cons, List.map_nil]
      refine List.nodup_append'.mpr ⟨hpairs, List.nodup_singleton p, fun q hq hp => ?_⟩
      obtain ⟨w, hw, rfl⟩ := List.mem_map.mp hq
      exact hpair w hw (List.mem_singleton.mp hp)
    · have hperm : (s.placed p h).heldTags.Perm (s.nextTag :: s.heldTags) := by
        simp only [State.heldTags, State.placed, List.map_append, ← List.append_assoc]
        simp only [List.map_cons, List.map_nil, List.append_assoc _ [_], List.singleton_append]
        exact List.perm_middle
      exact hperm.nodup_iff.mpr (List.nodup_cons.mpr ⟨hnew, htags⟩)
  owners := id
  line := id
  isolation k := by
    have hnil := hempty k
    obtain ⟨hline, -, hwork, -, hcur, -⟩ := k
    have hqueue : (s.placed p h).isolationQueue = [⟨s.nextTag, .auto, p, .command h .pumpSwap 2⟩] := by
      simp only [State.placed, hnil, List.nil_append]
    refine ⟨hline, by rw [hqueue]; exact le_refl 1, hwork, fun w hw => ?_, hcur, fun c hc _ w hw => ?_⟩
    · rw [hqueue, List.mem_singleton] at hw
      exact hw ▸ ⟨rfl, h, rfl, hverdict⟩
    · rw [hqueue, List.mem_singleton] at hw
      exact hw ▸ (hsweep c hc).symm
  centres k := by
    obtain ⟨htables, hhousings, ⟨hcur, hwork, hiso, halloc, heval, hleads⟩, hcentres⟩ := k
    refine ⟨htables, hhousings, ⟨hcur, hwork, fun w hw => ?_, halloc, heval, hleads⟩, hcentres⟩
    obtain hw | hw := List.mem_append.mp hw
    · exact hiso w hw
    · rw [List.mem_singleton.mp hw]
      exact ((hleads p).2 _ hverdict).2
  epoch := rfl

/-! ### The take -/

section Begin

variable (s : State) (w : Work)

theorem current_begin : (s.begin w).current = some ⟨w, .startChecks, s.len⟩ := by
  unfold State.begin
  dsimp only
  split <;> split <;> rfl

theorem phase_begin : (s.begin w).cmu.phase = if w.isCommand then .checking else s.cmu.phase := by
  unfold State.begin Work.isCommand
  cases w.kind with
  | sweep kind periods =>
    dsimp only
    split <;> rfl
  | command n op attempts => rfl

/-- The take changes the current work, the isolation status of automatic work, the clip count and the Command Unit. -/
theorem begin_frame : s.begin w = { s with
    current := (s.begin w).current, verdicts := (s.begin w).verdicts, clipCount := (s.begin w).clipCount
    cmu := (s.begin w).cmu } := by
  unfold State.begin
  dsimp only
  split <;> split <;> rfl

theorem len_begin : (s.begin w).len = s.len := by rw [begin_frame]; rfl

end Begin

/-- Work taken in IDLE from one of the queues. -/
theorem State.Acts.begin {s : State} {w : Work} {l m : List Work} (hc : s.current = none)
    (hperm : (w :: (l ++ m)).Perm (s.workQueue ++ s.isolationQueue)) (hl : l.Sublist s.workQueue)
    (hm : m.Sublist s.isolationQueue)
    (hauto : s.isolationFollows → (w.origin = .auto → s.isolates w) ∧ (w.isCommand = false → m = [])) :
    s.Acts (State.begin { s with workQueue := l, isolationQueue := m } w) := by
  set u : State := { s with workQueue := l, isolationQueue := m } with hu
  have hstep : u.LineStep (u.begin w) := .begin w
  have hcur := current_begin u w
  have hframe := begin_frame u w
  have hcurrent {x : Current} (hx : (u.begin w).current = some x) : x = ⟨w, .startChecks, u.len⟩ := by
    rw [hcur] at hx; exact (Option.some.inj hx).symm
  have hline (k : s.lineConsistent) : (u.begin w).lineConsistent := by
    obtain ⟨ha, hp, hchip, hsettle, heval⟩ := k.of_none hc
    refine (lineConsistent_iff_lineAt hcur).mpr ⟨?_, ?_, ?_, fun t ht => ?_, ?_, ?_⟩
    · have hphase : (u.begin w).cmu.phase = if w.isCommand then .checking else .free := by
        rw [phase_begin]; exact congrArg (if w.isCommand then .checking else ·) hp
      exact decide_eq_true hphase
    · rw [hframe]; exact congrArg Option.isSome hchip
    · rw [hframe]; exact congrArg Option.isSome hsettle
    · rw [hframe] at ht; exact absurd (hsettle.symm.trans ht) nofun
    · rw [hframe]; exact congrArg Option.isSome heval
    · rw [hframe]
      change (s.allocation.flatMap _).Nodup
      rw [ha]; exact List.nodup_nil
  refine ⟨⟨hstep.pending, hstep.canonical, hstep.bounded, fun k => ?work, fun k r ch => ?owners, hline,
    fun k => ?isolation, fun k => ?centres⟩, hstep.epoch⟩
  case work =>
    obtain ⟨hlen, hpairs, htags⟩ := k
    refine ⟨hstep.workQueue ▸ hl.length_le.trans hlen, hstep.isolationQueue ▸ hpairs.sublist (hm.map _), ?_⟩
    have hs : s.heldTags = (s.workQueue ++ s.isolationQueue).map (·.tag) := by
      simp [State.heldTags, hc]
    have ht : (u.begin w).heldTags = (l ++ m).map (·.tag) ++ [w.tag] := by
      rw [State.heldTags, hstep.workQueue, hstep.isolationQueue, hcur, ← List.map_append]
      rfl
    rw [hs] at htags
    rw [ht]
    exact ((List.perm_append_singleton _ _).trans (hperm.map (·.tag))).nodup_iff.mpr htags
  case owners =>
    have hclaim : (u.begin w).claim r = s.claim r := by
      cases r <;> simp only [State.claim, hstep.lineClaim, hstep.tablesClaim] <;> rfl
    rw [hclaim, hstep.views]
    exact k r ch
  case isolation =>
    obtain ⟨hiso, hsweep⟩ := hauto k
    obtain ⟨hl', hone, hwork, hqueue, -, -⟩ := k
    have carry (x : Work) (hx : s.isolates x) : (u.begin w).isolates x := isolates_congr (s := s) (hstep.leads _).2 hx
    refine ⟨hline hl', ?_, ?_, ?_, fun x hx ho => ?_, fun x hx hs y hy => ?_⟩
    · rw [hstep.isolationQueue]; exact hm.length_le.trans hone
    · rw [hstep.workQueue]; exact fun x hx => hwork x (hl.subset hx)
    · rw [hstep.isolationQueue]; exact fun x hx => carry x (hqueue x (hm.subset hx))
    · obtain rfl := hcurrent hx; exact carry w (hiso ho)
    · obtain rfl := hcurrent hx
      rw [hstep.isolationQueue, show u.isolationQueue = [] from hsweep hs] at hy
      cases hy
  case centres =>
    have hall (x : Work) (hx : x ∈ w :: (l ++ m)) : x.housing ≤ 192 := by
      obtain ⟨-, -, ⟨-, hwork, hiso, -⟩, -⟩ := k
      obtain hx | hx := List.mem_append.mp (hperm.subset hx)
      · exact hwork x hx
      · exact hiso x hx
    obtain ⟨htables, hhousings, ⟨-, -, -, halloc, heval, hleads⟩, hcentres⟩ := k
    refine ⟨hstep.tablesLegal (s := u) htables, hstep.housingsLegal (s := u) hhousings,
      ⟨fun x hx => ?_, ?_, ?_, ?_, ?_, fun p => ?_⟩, fun p n hn => hstep.centreLegal (s := u) (hcentres p n hn)⟩
    · obtain rfl := hcurrent hx
      exact ⟨(len_begin u w).symm, hall w List.mem_cons_self⟩
    · rw [hstep.workQueue]; exact fun x hx => hall x (List.mem_cons_of_mem _ (List.mem_append_left _ hx))
    · rw [hstep.isolationQueue]; exact fun x hx => hall x (List.mem_cons_of_mem _ (List.mem_append_right _ hx))
    · rw [hframe]; exact halloc
    · rw [hframe]; exact heval
    · rw [(hstep.leads p).1, (hstep.leads p).2]; exact hleads p

theorem State.Acts.take {s : State} (hc : s.current = none) : s.Acts s.take := by
  unfold State.take State.nextWork
  match hi : s.isolationQueue, hw : s.workQueue with
  | w :: rest, l =>
    have h := State.Acts.begin (l := l) (m := rest) (w := w) hc (by rw [hi, hw]; exact List.perm_middle.symm)
      (by rw [hw]) (by rw [hi]; exact List.sublist_cons_self _ _) fun k => ?_
    · simpa only [← hw] using h
    · obtain ⟨-, hone, -, hiso, -, -⟩ := k
      rw [hi] at hone hiso
      exact ⟨fun _ => hiso w List.mem_cons_self, fun _ => List.eq_nil_of_length_eq_zero (by simpa using hone)⟩
  | [], w :: rest =>
    have h := State.Acts.begin (l := rest) (m := []) (w := w) hc (by rw [hi, hw]; exact .refl _)
      (by rw [hw]; exact List.sublist_cons_self _ _) (by rw [hi]) fun k => ?_
    · simpa only [← hi] using h
    · obtain ⟨-, -, hwork, -, -, -⟩ := k
      exact ⟨fun ho => absurd ho (hwork w (hw ▸ List.mem_cons_self)), fun _ => rfl⟩
  | [], [] => exact .refl s

end Sys2Proof.Machine
end

section
/-! SUPPORT. The tables: nominal lags and centre lags within their bounds, and what each write of the Table Store keeps. -/

namespace Sys2Proof.Machine

/-! ### Bounds of the nominal lags -/

theorem seqLength_ge {m : Nat} (h : 11 ≤ m) : 2047 ≤ seqLength m := by
  have := Nat.pow_le_pow_right (n := 2) (by decide) h
  unfold seqLength
  omega

theorem State.tablesLegal.len_ge {s : State} (h : s.tablesLegal) : 2047 ≤ s.len := seqLength_ge h.1.1

/-- Every nominal lag is a legal lag (R1, R18). -/
theorem nominalLag_bounds {s : State} (ht : s.tablesLegal) (hh : s.housingsLegal) {n : Nat} (hn : n ≤ 192) :
    32 ≤ s.nominalLag n ∧ s.nominalLag n ≤ s.len - 33 := by
  have hlen := ht.len_ge
  obtain ⟨⟨-, -, -, hlow, hhigh, -⟩, -, -⟩ := ht
  obtain ⟨hpresent, hparked, -⟩ := hh
  unfold State.nominalLag
  split
  · exact ⟨hlow, hhigh⟩
  · cases hp : (s.housing n).present with
    | true =>
      obtain ⟨-, -, h1, h2⟩ := hpresent n (by omega) hn hp
      omega
    | false =>
      rw [hparked n (by omega) hn hp]
      simp only [housingDefault]
      omega

/-- Nominal lags of present housings rise, the reference first (R18). -/
theorem State.centresLegal.centre {s : State} (h : s.centresLegal) {p : Pair} {n : Nat} (hn : n ≤ 192) :
    s.centreLegal p n := by
  obtain ⟨-, -, -, hcentre⟩ := h
  exact hcentre p n hn

theorem State.centresLegal.leads {s : State} (h : s.centresLegal) (p : Pair) :
    leadLegal (s.verdict p).candidate ∧ leadLegal (s.verdict p).confirmed := by
  obtain ⟨-, -, ⟨-, -, -, -, -, hleads⟩, -⟩ := h
  exact hleads p

theorem nominalLag_lt {s : State} (hh : s.housingsLegal) {i j : Nat} (hij : i < j) (hj : j ≤ 192)
    (hi : s.present i = true) (hp : (s.housing j).present = true) : s.nominalLag i < s.nominalLag j := by
  obtain ⟨hpresent, -, hrise⟩ := hh
  have hj0 : j ≠ 0 := by omega
  simp only [State.nominalLag, hj0, if_false]
  split
  · obtain ⟨-, -, hreference, -⟩ := hpresent j (by omega) hj hp
    exact hreference
  · next hi0 =>
    have hi' : (s.housing i).present = true := by simpa [State.present, hi0] using hi
    exact (hrise i j (by omega) hij hj hi' hp).1

/-! ### Centre lags -/

theorem centreLegal_of_nominal {s : State} {p : Pair} {n : Nat} (ht : s.tablesLegal) (hh : s.housingsLegal)
    (hn : n ≤ 192) (htemplate : (s.wp p n).template < 4) (hcentre : (s.wp p n).centre = s.nominalLag n) :
    s.centreLegal p n := by
  obtain ⟨hlow, hhigh⟩ := nominalLag_bounds ht hh hn
  refine ⟨htemplate, ?_, ?_, ?_, ?_⟩ <;> omega

/-- The centre lag of a watch point depends on its template, its centre, and the tables it reads. -/
theorem centreLegal_congr {s t : State} {p : Pair} {n : Nat} (h1 : (t.wp p n).template = (s.wp p n).template)
    (h2 : (t.wp p n).centre = (s.wp p n).centre) (h3 : t.nominalLag n = s.nominalLag n)
    (h4 : (t.template (s.wp p n).template).width = (s.template (s.wp p n).template).width)
    (h5 : t.len = s.len) (h : s.centreLegal p n) : t.centreLegal p n := by
  unfold State.centreLegal State.widthOf at *
  rw [h1, h2, h3, h4, h5]
  exact h

/-- Half the width of a template, as the bounds of a centre lag use it (R22). -/
theorem half_width_le {s : State} (ht : s.tablesLegal) {n : Nat} (hn : n < 4) : (s.template n).width / 2 ≤ 32 := by
  obtain ⟨-, -, h, -⟩ := ht.2.1 n hn
  omega

/-! ### Watch points rewritten -/

theorem canonical_watchPoints {s : State} {m : Memory WatchPoint}
    (h : Memory.wf wpDefault s.watchPoints = true → Memory.wf wpDefault m = true) (k : s.memoriesCanonical) :
    ({ s with watchPoints := m } : State).memoriesCanonical := by
  obtain ⟨h1, h2, h3, h4⟩ := k
  exact ⟨h1, h2, h h3, h4⟩

/-- Watch points rewritten: every centre lag stays legal, and the rest of the tables is as it was. -/
theorem State.Acts.watchPoints {s : State} (m : Memory WatchPoint)
    (hwf : Memory.wf wpDefault s.watchPoints = true → Memory.wf wpDefault m = true)
    (h : s.centresLegal → ∀ p n, n ≤ 192 → ({ s with watchPoints := m } : State).centreLegal p n) :
    s.Acts { s with watchPoints := m } :=
  .tables (u := { s with watchPoints := m }) rfl (canonical_watchPoints hwf) fun k =>
    have ⟨htables, hhousings, hwork, _⟩ := k
    ⟨htables, hhousings, hwork, h k⟩

/-- A list of watch points rewritten with template and centre lag left alone. -/
theorem State.Acts.updateWps {s : State} (p : Pair) {hs : List Nat} (f : Nat → WatchPoint → WatchPoint)
    (hn : hs.Nodup) (hb : ∀ h ∈ hs, h ≤ 192)
    (hf : ∀ h w, (f h w).template = w.template ∧ (f h w).centre = w.centre) : s.Acts (s.updateWps p hs f) := by
  refine .watchPoints _ (Memory.wf_update _ _ _) fun k q n hn' => ?_
  have hw : (s.updateWps p hs f).wp q n = _ := wp_updateWps s p q hs f n hn hb hn'
  refine centreLegal_congr (s := s) ?_ ?_ rfl rfl rfl (k.centre hn')
  · exact (congrArg WatchPoint.template hw).trans (by split <;> simp [hf])
  · exact (congrArg WatchPoint.centre hw).trans (by split <;> simp [hf])

theorem State.Acts.setEnabled {s : State} (p : Pair) {hs : List Nat} (hn : hs.Nodup) (hb : ∀ h ∈ hs, h ≤ 192) (b : Bool) :
    s.Acts (s.setEnabled p hs b) := .updateWps p _ hn hb fun _ _ => ⟨rfl, rfl⟩

/-- One watch point written with a legal template and centre lag. -/
theorem State.Acts.setWp {s : State} (p : Pair) {h : Nat} (w : WatchPoint)
    (hw : s.centresLegal → h ≤ 192 ∧ (s.setWp p h w).centreLegal p h) : s.Acts (s.setWp p h w) := by
  refine .watchPoints _ (Memory.wf_write _ _ _) fun k q n hn => ?_
  obtain ⟨hh, hlegal⟩ := hw k
  by_cases he : (q, n) = (p, h)
  · obtain ⟨rfl, rfl⟩ := Prod.mk.inj he
    exact hlegal
  · have hother := wp_setWp_other s w hh hn he
    exact centreLegal_congr (s := s) (congrArg WatchPoint.template hother) (congrArg WatchPoint.centre hother) rfl rfl rfl
      (k.centre hn)

theorem State.Acts.configure {s : State} (p : Pair) {n template : Nat} (q : RQ) (tracking : Bool) (hn : n ≤ 192)
    (ht : template < 4) : s.Acts (s.configure p n template q tracking) := by
  refine .setWp p _ fun k => ⟨hn, ?_⟩
  refine centreLegal_of_nominal k.1 k.2.1 hn ?_ ?_
  · rw [wp_setWp_same]; exact ht
  · rw [wp_setWp_same]; rfl

theorem State.Acts.storeBaseline (s : State) (p : Pair) (n value : Nat) : s.Acts (s.storeBaseline p n value) :=
  .records (.setWp p n _ ⟨rfl, rfl, rfl⟩) rfl

theorem wf_updatePairs {s : State} (hs : List Nat) (f : Nat → WatchPoint → WatchPoint) (ps : List Pair)
    (h : Memory.wf wpDefault s.watchPoints = true) : Memory.wf wpDefault (s.updatePairs hs f ps).watchPoints = true := by
  induction ps generalizing s with
  | nil => exact h
  | cons p ps ih => exact ih (Memory.wf_update _ _ _ h)

section Stored

variable {s : State} (h : Memory.wf wpDefault s.watchPoints = true)
include h

theorem wf_storeLineSetup (x : LineSetup) : Memory.wf wpDefault (s.storeLineSetup x).watchPoints = true := by
  unfold State.storeLineSetup
  exact wf_updatePairs (s := { s with lineSetup := x }) _ _ _ h

theorem wf_storeHousing (n : Nat) (e : HousingEntry) :
    Memory.wf wpDefault (s.storeHousing n e).watchPoints = true := by
  unfold State.storeHousing
  exact wf_updatePairs (s := s.setHousing n e) _ _ _ h

theorem wf_storeTemplate (n width limit : Nat) :
    Memory.wf wpDefault (s.storeTemplate n width limit).watchPoints = true := by
  unfold State.storeTemplate
  exact wf_updatePairs (s := { s with
    templates := Memory.write templateDefault s.templates n ⟨width, min limit (width / 4)⟩ }) _ _ _ h

end Stored

/-! ### WRITE_LINE_SETUP -/

theorem seqLength_eq (m : Nat) : seqLength m = 2 ^ m - 1 := rfl

/-- Where the lag-order test of a new Line Setup passes, every present housing keeps a legal lag (R2). -/
theorem lags_of_setupLagOrder {s : State} (hh : s.housingsLegal) {m refLag : Nat}
    (h : ¬ s.setupLagOrder m refLag = true) {i : Nat} (h1 : 1 ≤ i) (h2 : i ≤ 192) (hp : (s.housing i).present = true) :
    refLag < (s.housing i).lag ∧ (s.housing i).lag ≤ seqLength m - 33 := by
  rw [setupLagOrder_iff, not_or] at h
  obtain ⟨hfar, hnear⟩ := h
  refine ⟨?_, ?_⟩
  · have hex : ∃ j, 1 ≤ j ∧ j ≤ 192 ∧ (s.housing j).present = true := ⟨i, h1, h2, hp⟩
    let a := Nat.find hex
    obtain ⟨ha1, ha2, hap⟩ : 1 ≤ a ∧ a ≤ 192 ∧ (s.housing a).present = true := Nat.find_spec hex
    have hai : a ≤ i := Nat.find_min' hex ⟨h1, h2, hp⟩
    have hlow (j : Nat) (hj : 1 ≤ j) (hja : j < a) : (s.housing j).present = false := by
      by_contra hc
      exact Nat.find_min hex hja ⟨hj, by omega, by simpa using hc⟩
    have hfirst : refLag < (s.housing a).lag := by
      by_contra hc
      exact hnear ⟨a, ha1, ha2, hap, by omega, hlow⟩
    rcases Nat.eq_or_lt_of_le hai with e | e
    · exact e ▸ hfirst
    · have := (hh.2.2 a i ha1 e h2 hap hp).1
      omega
  · rw [seqLength_eq]
    by_contra hc
    exact hfar ⟨i, h1, h2, hp, by omega⟩

theorem State.Acts.storeLineSetup {s : State} {x : LineSetup} (hx : x.legal) (hidle : s.current = none)
    (horder : ¬ s.setupLagOrder x.m x.refLag = true) : s.Acts (s.storeLineSetup x) := by
  have hframe := storeLineSetup_frame s x
  generalize hm : (s.storeLineSetup x).watchPoints = m at hframe
  refine .tables (u := { s with lineSetup := x, watchPoints := m }) hframe
    (fun k => ?_) fun k => ?_
  · rw [hframe]
    exact canonical_watchPoints (m := m) (fun h => hm ▸ wf_storeLineSetup h x) k
  · obtain ⟨⟨-, htemplates, hpolicies⟩, hh, ⟨-, hwork, hiso, halloc, heval, hleads⟩, hcentres⟩ := k
    have hhousing (n : Nat) : (s.storeLineSetup x).housing n = s.housing n := by rw [hframe]; rfl
    have hlen : (s.storeLineSetup x).len = seqLength x.m := by rw [hframe]; rfl
    have ht : (s.storeLineSetup x).tablesLegal :=
      ⟨lineSetup_storeLineSetup s x ▸ hx, by rw [hframe]; exact htemplates, by rw [hframe]; exact hpolicies⟩
    have hh' : (s.storeLineSetup x).housingsLegal := by
      refine ⟨fun h h1 h2 hp => ?_, fun h h1 h2 hp => ?_, fun h i h1 hi h2 hp hq => ?_⟩
      · rw [hhousing] at hp
        obtain ⟨ha, hb, -, -⟩ := hh.1 h h1 h2 hp
        rw [hhousing, lineSetup_storeLineSetup, hlen]
        exact ⟨ha, hb, lags_of_setupLagOrder hh horder h1 h2 hp⟩
      · rw [hhousing] at hp ⊢
        exact hh.2.1 h h1 h2 hp
      · rw [hhousing] at hp hq
        rw [hhousing, hhousing]
        exact hh.2.2 h i h1 hi h2 hp hq
    refine ⟨ht, hh', ⟨fun c hc => ?_, ?_, ?_, ?_, ?_, ?_⟩, fun p n hn => ?_⟩
    · rw [hframe] at hc
      exact absurd (hidle.symm.trans hc) nofun
    · rw [hframe]; exact hwork
    · rw [hframe]; exact hiso
    · rw [hframe]; exact halloc
    · rw [hframe]; exact heval
    · rw [hframe]; exact hleads
    · have hw := wp_storeLineSetup s x p hn
      refine centreLegal_of_nominal ht hh' hn ?_ ?_
      · rw [hw]; exact (hcentres p n hn).1
      · rw [hw, State.nominalLag, lineSetup_storeLineSetup, hhousing]

/-! ### WRITE_HOUSING -/

/-- An entry fits the table at `n`: it is parked, or its lag stands between those of its neighbours and its address is no
other's (R18, R19). -/
def State.entryFits (s : State) (n : Nat) (e : HousingEntry) : Prop :=
  e = housingDefault n ∨
    e.present = true ∧ 1 ≤ e.address ∧ e.address ≤ 4094 ∧ e.lag ≤ s.len - 33 ∧ s.lineSetup.refLag < e.lag ∧
    (∀ i, 1 ≤ i → i ≤ 192 → i ≠ n → (s.housing i).present = true → (s.housing i).address ≠ e.address) ∧
    (∀ i, 1 ≤ i → i < n → (s.housing i).present = true → (s.housing i).lag < e.lag) ∧
    ∀ i, n < i → i ≤ 192 → (s.housing i).present = true → e.lag < (s.housing i).lag

/-- Where the lag-order test passes, the lag stands above those of all present housings below (R19). -/
theorem lags_below_of_housingLagOrder {s : State} (hh : s.housingsLegal) {n lag : Nat} (h1 : 1 ≤ n) (h2 : n ≤ 192)
    (h : ¬ s.housingLagOrder n lag = true) {i : Nat} (hi : i < n) (hp : s.present i = true) :
    s.nominalLag i < lag := by
  rw [housingLagOrder_iff h1 h2, not_or] at h
  let b := Nat.findGreatest (fun b => s.present b = true) (n - 1)
  have hb : s.present b = true := Nat.findGreatest_spec (P := fun b => s.present b = true) (by omega : i ≤ n - 1) hp
  have hib : i ≤ b := Nat.le_findGreatest (P := fun b => s.present b = true) (by omega) hp
  have hbn : b ≤ n - 1 := Nat.findGreatest_le _
  have hgap (j : Nat) (hbj : b < j) (hjn : j < n) : s.present j = false := by
    simpa using Nat.findGreatest_is_greatest hbj (by omega : j ≤ n - 1)
  have hnear : s.nominalLag b < lag := by
    by_contra hc
    exact h.1 ⟨b, by omega, hb, hgap, by omega⟩
  rcases Nat.eq_or_lt_of_le hib with e | e
  · exact e ▸ hnear
  · have hb' : (s.housing b).present = true := by
      simpa [State.present, show b ≠ 0 by omega] using hb
    exact (nominalLag_lt hh e (by omega) hp hb').trans hnear

/-- Where the lag-order test passes, the lag stands below those of all present housings above (R19). -/
theorem lags_above_of_housingLagOrder {s : State} (hh : s.housingsLegal) {n lag : Nat} (h1 : 1 ≤ n) (h2 : n ≤ 192)
    (h : ¬ s.housingLagOrder n lag = true) {i : Nat} (hi : n < i) (hi' : i ≤ 192)
    (hp : (s.housing i).present = true) : lag < (s.housing i).lag := by
  rw [housingLagOrder_iff h1 h2, not_or] at h
  have present_iff (j : Nat) (hj : n < j) : s.present j = (s.housing j).present := by
    simp [State.present, show j ≠ 0 by omega]
  have nominal (j : Nat) (hj : n < j) : s.nominalLag j = (s.housing j).lag := if_neg (by omega)
  have hex : ∃ a, n < a ∧ s.present a = true := ⟨i, hi, by rw [present_iff i hi, hp]⟩
  let a := Nat.find hex
  obtain ⟨han, hap⟩ : n < a ∧ s.present a = true := Nat.find_spec hex
  have hai : a ≤ i := Nat.find_min' hex ⟨hi, by rw [present_iff i hi, hp]⟩
  have hgap (j : Nat) (hj : n < j) (hja : j < a) : s.present j = false := by
    by_contra hc
    exact Nat.find_min hex hja ⟨hj, by simpa using hc⟩
  have hnear : lag < s.nominalLag a := by
    by_contra hc
    exact h.2 ⟨a, han, by omega, hap, hgap, by omega⟩
  rw [← nominal i hi]
  rcases Nat.eq_or_lt_of_le hai with e | e
  · exact e ▸ hnear
  · exact hnear.trans (nominalLag_lt hh e hi' hap hp)

theorem State.Acts.storeHousing {s : State} {n : Nat} {e : HousingEntry} (h1 : 1 ≤ n) (h2 : n ≤ 192)
    (hfit : s.centresLegal → s.entryFits n e) : s.Acts (s.storeHousing n e) := by
  have hframe := storeHousing_frame s n e
  generalize hm : (s.storeHousing n e).watchPoints = m at hframe
  refine .tables (u := { s with housings := Memory.write housingDefault s.housings n e, watchPoints := m }) hframe
    (fun k => ?_) fun k => ?_
  · obtain ⟨c1, c2, c3, c4⟩ := k
    have hwf : Memory.wf wpDefault m = true := hm ▸ wf_storeHousing c3 n e
    rw [hframe]
    exact ⟨Memory.wf_write _ _ _ c1, c2, hwf, c4⟩
  · have hfit := hfit k
    obtain ⟨ht, hh, hwork, hcentres⟩ := k
    have hsame : (s.storeHousing n e).housing n = e := housing_storeHousing_same s n e
    have hother (i : Nat) (hi : i ≠ n) : (s.storeHousing n e).housing i = s.housing i :=
      housing_storeHousing_other s e hi
    have hsetup : (s.storeHousing n e).lineSetup = s.lineSetup := by rw [hframe]
    have hlen : (s.storeHousing n e).len = s.len := by rw [hframe]; rfl
    have ht' : (s.storeHousing n e).tablesLegal := by rw [hframe]; exact ht
    have hh' : (s.storeHousing n e).housingsLegal := by
      refine ⟨fun h g1 g2 hp => ?_, fun h g1 g2 hp => ?_, fun h i g1 hi g2 hp hq => ?_⟩
      · rw [hsetup, hlen]
        by_cases hn : h = n
        · subst hn
          rw [hsame] at hp ⊢
          obtain rfl | ⟨-, f1, f2, f3, f4, -⟩ := hfit
          · cases hp
          · exact ⟨f1, f2, f4, f3⟩
        · rw [hother h hn] at hp ⊢
          exact hh.1 h g1 g2 hp
      · by_cases hn : h = n
        · subst hn
          rw [hsame] at hp ⊢
          obtain rfl | ⟨f0, -⟩ := hfit
          · rfl
          · rw [f0] at hp; cases hp
        · rw [hother h hn] at hp ⊢
          exact hh.2.1 h g1 g2 hp
      · by_cases hn : h = n
        · subst hn
          have hin : i ≠ h := by omega
          rw [hsame] at hp ⊢
          rw [hother i hin] at hq ⊢
          obtain rfl | ⟨-, -, -, -, -, f5, -, f7⟩ := hfit
          · cases hp
          · exact ⟨f7 i hi g2 hq, (f5 i (by omega) g2 hin hq).symm⟩
        · rw [hother h hn] at hp ⊢
          by_cases hin : i = n
          · subst hin
            rw [hsame] at hq ⊢
            obtain rfl | ⟨-, -, -, -, -, f5, f6, -⟩ := hfit
            · cases hq
            · exact ⟨f6 h g1 hi hp, f5 h g1 (by omega) hn hp⟩
          · rw [hother i hin] at hq ⊢
            exact hh.2.2 h i g1 hi g2 hp hq
    refine ⟨ht', hh', by rw [hframe]; exact hwork, fun p i hi => ?_⟩
    have hw := wp_storeHousing s e h2 p hi
    by_cases hin : i = n
    · rw [if_pos hin] at hw
      refine centreLegal_of_nominal ht' hh' hi ?_ ?_
      · rw [hw]; exact (hcentres p i hi).1
      · rw [hw, State.nominalLag, if_neg (by omega), hin, hsame]
    · rw [if_neg hin] at hw
      refine centreLegal_congr (s := s) (by rw [hw]) (by rw [hw]) ?_ (by rw [hframe]; rfl) hlen (hcentres p i hi)
      rw [State.nominalLag, State.nominalLag, hsetup, hother i hin]

/-! ### WRITE_TEMPLATE -/

theorem State.Acts.storeTemplate {s : State} {n width : Nat} (limit : Nat) (hn : n < 4) (heven : width % 2 = 0)
    (hlow : 4 ≤ width) (hhigh : width ≤ 64) : s.Acts (s.storeTemplate n width limit) := by
  have hframe := storeTemplate_frame s n width limit
  generalize hm : (s.storeTemplate n width limit).watchPoints = m at hframe
  refine .tables (u := { s with
    templates := Memory.write templateDefault s.templates n ⟨width, min limit (width / 4)⟩, watchPoints := m }) hframe
    (fun k => ?_) fun k => ?_
  · obtain ⟨c1, c2, c3, c4⟩ := k
    have hwf : Memory.wf wpDefault m = true := hm ▸ wf_storeTemplate c3 n width limit
    rw [hframe]
    exact ⟨c1, Memory.wf_write _ _ _ c2, hwf, c4⟩
  · obtain ⟨ht, hh, hwork, hcentres⟩ := k
    have hsame := template_storeTemplate_same s n width limit
    have hother (i : Nat) (hi : i ≠ n) := template_storeTemplate_other s width limit hi
    have hlen : (s.storeTemplate n width limit).len = s.len := by rw [hframe]; rfl
    have hnominal (i : Nat) : (s.storeTemplate n width limit).nominalLag i = s.nominalLag i := by rw [hframe]; rfl
    refine ⟨⟨by rw [hframe]; exact ht.1, fun i hi => ?_, by rw [hframe]; exact ht.2.2⟩, by rw [hframe]; exact hh,
      by rw [hframe]; exact hwork, fun p i hi => ?_⟩
    · by_cases hin : i = n
      · subst hin
        rw [hsame]
        exact ⟨heven, hlow, hhigh, Nat.min_le_right _ _⟩
      · rw [hother i hin]
        exact ht.2.1 i hi
    · have hw := wp_storeTemplate s n width limit p hi
      by_cases hsel : (s.wp p i).template = n
      · rw [if_pos hsel] at hw
        obtain ⟨hn1, hn2⟩ := nominalLag_bounds ht hh hi
        obtain ⟨-, -, -, hc1, hc2⟩ := hcentres p i hi
        unfold State.centreLegal State.widthOf
        rw [hw, hnominal, hlen]
        simp only [hsel, hsame]
        refine ⟨hn, ?_, ?_, ?_, ?_⟩ <;> omega
      · rw [if_neg hsel] at hw
        exact centreLegal_congr (s := s) (by rw [hw]) (by rw [hw]) (hnominal i) (by rw [hother _ hsel]) hlen
          (hcentres p i hi)

/-! ### WRITE_PAIR_POLICY -/

theorem State.Acts.setPolicy {s : State} (p : Pair) {v : Policy} (hv : v.legal) : s.Acts (s.setPolicy p v) := by
  refine .tables (u := s.setPolicy p v) rfl (fun k => ?_) fun k => ?_
  · obtain ⟨c1, c2, c3, c4, c5⟩ := k
    exact ⟨c1, c2, c3, Memory.wf_write _ _ _ c4, c5⟩
  · obtain ⟨⟨hl, ht, hp⟩, rest⟩ := k
    refine ⟨⟨hl, ht, fun q => ?_⟩, rest⟩
    by_cases hq : q = p
    · rw [hq, policy_setPolicy_same]; exact hv
    · rw [policy_setPolicy_other _ _ hq]; exact hp q

theorem State.Acts.normaliseChanged (s : State) (p : Pair) : s.Acts (s.normaliseChanged p) :=
  .updateWps p _ repeaters_nodup (fun _ h => (mem_repeaters.mp h).2) fun _ _ => ⟨rfl, rfl⟩

theorem State.Acts.autoIsolateOff (s : State) (p : Pair) : s.Acts (s.autoIsolateOff p) := by
  unfold State.autoIsolateOff
  exact .ite (fun _ => .ite (fun _ => (State.Acts.withdraw _).trans (.setStatus _ _)) fun _ => .withdraw _)
    fun _ => .refl s

theorem State.Acts.storePolicy (s : State) (p : Pair) {v : Policy} (hv : v.legal) : s.Acts (s.storePolicy p v) := by
  have stored : s.Acts _ := .setPolicy p hv
  have changed : s.Acts (if (s.policy p).normalise ≠ v.normalise then (s.setPolicy p v).normaliseChanged p
      else s.setPolicy p v) := .ite (fun _ => stored.trans (.normaliseChanged _ p)) fun _ => stored
  unfold State.storePolicy
  exact .ite (fun _ => changed.trans (.autoIsolateOff _ p)) fun _ => changed

/-! ### The queued entry withdrawn -/

theorem State.Acts.withdrawTarget (s : State) (p : Pair) (n : Nat) (st : IsolationStatus) :
    s.Acts (s.withdrawTarget p n st) :=
  .ite (fun _ => (State.Acts.withdraw _).trans (.setStatus _ _)) fun _ => .refl s

end Sys2Proof.Machine
end

section
/-! SUPPORT. What the commands of the line side keep: period ends and strobes, the evaluation, the Command Unit. -/

namespace Sys2Proof.Machine

/-! ### Period ends -/

/-- Period ends act on the current work in their state, with the chip timer running. -/
theorem acts_atPeriodEnd {s : State} {st : LineState} {act : Current → ChipTimer → State}
    (h : ∀ c t, s.current = some c → s.chipTimer = some t → c.state = st → s.Acts (act c t)) :
    s.Acts (s.atPeriodEnd st act) := by
  unfold State.atPeriodEnd
  split
  next c t hc ht => exact .ite (fun hst => h c t hc ht hst.1) fun _ => .refl s
  next => exact .refl s

/-- A chip timer that runs is moved on. -/
theorem acts_chipTimer {s t : State} {x y : ChipTimer} (hx : s.chipTimer = some x) (e : t = { s with
    chipTimer := some y, generator := t.generator, cmu := t.cmu }) (hp : t.cmu.phase = s.cmu.phase) : s.Acts t := by
  obtain ⟨g, hg⟩ : ∃ g, t.generator = g := ⟨_, rfl⟩
  obtain ⟨u, hu⟩ : ∃ u, t.cmu = u := ⟨_, rfl⟩
  rw [hg, hu] at e
  subst e
  exact .run (.of_same (.path rfl id) rfl rfl rfl)
    (lineConsistent_congr rfl rfl hp (by rw [hx]; rfl) rfl rfl rfl)

theorem acts_settlePeriodEnd (s : State) : s.Acts (s.atPeriodEnd .settle fun c t =>
    { s with current := some { c with state := .integrate }, chipTimer := some t.takeEnd }) := by
  refine acts_atPeriodEnd fun c t hc ht hst => .run (.of_subset (.path rfl id) ?_ (List.Subset.refl _)
    fun e he => ⟨e, he, List.Subset.refl _⟩) fun h => ?_
  · rintro x ⟨⟩
    exact ⟨c, hc, rfl, rfl⟩
  · obtain ⟨phase, -, settle, limit, eval, cells⟩ := (lineConsistent_iff_lineAt hc).mp h
    rw [hst] at phase settle eval
    exact (lineConsistent_iff_lineAt rfl).mpr ⟨phase, rfl, settle, limit, eval, cells⟩

theorem acts_integratePeriodEnd (s : State) : s.Acts (s.atPeriodEnd .integrate fun c t =>
    if t.ends < c.work.periods then { s with chipTimer := some t.takeEnd } else s) :=
  acts_atPeriodEnd fun _ _ _ ht _ => .ite (fun _ => acts_chipTimer ht rfl rfl) fun _ => .refl s

@[simp] theorem remaining_settleStage (e : Evaluation) (k : SweepKind) : (e.settleStage k).remaining = e.remaining := by
  unfold Evaluation.settleStage
  split <;> rfl

theorem acts_integrateComplete (s : State) : s.Acts (s.atPeriodEnd .integrate fun c t =>
    if c.work.periods ≤ t.ends then
      { s with current := some { c with state := .evaluate }, chipTimer := none
               evaluation := some (s.newEvaluation c.work) }
    else s) := by
  refine acts_atPeriodEnd fun c t hc ht hst => .ite (fun _ => .run ⟨.path rfl id, ?_, ?_⟩ fun h => ?_) fun _ => .refl s
  · rintro x ⟨⟩
    exact ⟨c, hc, rfl, rfl⟩
  · rintro ⟨hw, ha, -⟩
    refine ⟨?_, ha, ?_⟩
    · rintro x ⟨⟩
      exact hw c hc
    · rintro e ⟨⟩ g hg
      rw [State.newEvaluation, remaining_settleStage] at hg
      exact ha g hg
  · obtain ⟨phase, -, settle, limit, -, cells⟩ := (lineConsistent_iff_lineAt hc).mp h
    rw [hst] at phase settle
    exact (lineConsistent_iff_lineAt rfl).mpr ⟨phase, rfl, settle, limit, rfl, cells⟩

/-! ### The strobe -/

theorem acts_recordChip (s : State) (len n : Nat) : s.Acts (s.recordChip len n) where
  pending := rfl
  canonical h := by
    obtain ⟨h1, h2, h3, h4, h5, h6, h7⟩ := h
    exact ⟨h1, h2, h3, h4, h5, Memory.wf_write _ _ _ h6, h7⟩
  reports := id
  work := id
  owners := id
  line := id
  isolation := id
  centres := id
  epoch := rfl

theorem acts_accumulate (s : State) (len n : Nat) (x : Sample) (l : List Segment) : s.Acts (s.accumulate len n x l) := by
  induction l generalizing s with
  | nil => exact .refl s
  | cons g l ih =>
    have hg : s.Acts (s.accumulateSegment len n x g) :=
      .run (.of_same (.path rfl (Memory.wf_update _ _ _)) rfl rfl rfl) id
    exact hg.trans (ih _)

/-- Accumulation changes the cells alone. -/
theorem accumulate_frame (s : State) (len n : Nat) (x : Sample) (l : List Segment) :
    s.accumulate len n x l = { s with cells := (s.accumulate len n x l).cells } := by
  induction l generalizing s with
  | nil => rfl
  | cons g l ih =>
    rw [State.accumulate, ih]
    rfl

theorem acts_closeInterval (s : State) (len next : Nat) : s.Acts (s.closeInterval len next) := by
  unfold State.closeInterval
  split
  · exact .ite (fun _ => .run (.of_same (.path rfl (State.LineStep.wf_clearSegments _)) rfl rfl rfl) id) fun _ => .refl s
  · exact .refl s

@[simp] theorem chipTimer_accumulate (s : State) (len n : Nat) (x : Sample) (l : List Segment) :
    (s.accumulate len n x l).chipTimer = s.chipTimer := by rw [accumulate_frame]

@[simp] theorem chipTimer_closeInterval (s : State) (len next : Nat) :
    (s.closeInterval len next).chipTimer = s.chipTimer := by
  unfold State.closeInterval
  split
  · split <;> rfl
  · rfl

theorem acts_deliver (s : State) (c : Current) (n : Nat) (x : Sample) : s.Acts (s.deliver c n x) := by
  have open_ : s.Acts (if s.cmu.phase.intervalOpen then s.intervalSample c.len n x else s) :=
    .ite (fun _ => (acts_accumulate ..).trans (acts_closeInterval ..)) fun _ => .refl s
  unfold State.deliver
  split
  case h_1 =>
    have hclip : s.Acts { s with clipCount := clipAfter s.clipCount x } := .run (.of_same (.path rfl id) rfl rfl rfl) id
    exact hclip.trans (acts_accumulate ..)
  case h_2 => exact open_
  case h_3 => exact open_
  case h_4 => exact open_
  all_goals exact .refl s

theorem chipTimer_deliver (s : State) (c : Current) (n : Nat) (x : Sample) :
    (s.deliver c n x).chipTimer = s.chipTimer := by
  have open_ : (if s.cmu.phase.intervalOpen then s.intervalSample c.len n x else s).chipTimer = s.chipTimer := by
    split
    · rw [State.intervalSample, chipTimer_closeInterval, chipTimer_accumulate]
    · rfl
  unfold State.deliver
  split
  case h_1 => rw [chipTimer_accumulate]
  case h_2 => exact open_
  case h_3 => exact open_
  case h_4 => exact open_
  all_goals rfl

theorem acts_strobe {s : State} {t : ChipTimer} (ht : s.chipTimer = some t) (c : Current) (x : Sample) :
    s.Acts (s.strobe c t x) :=
  ((acts_recordChip s c.len t.index).trans (acts_deliver _ c t.index x)).trans
    (acts_chipTimer ((chipTimer_deliver ..).trans ht) rfl rfl)

/-! ### The evaluation -/

/-- An action of the evaluation happens at its stage, with the work in EVALUATE. -/
theorem acts_atStage {s : State} {stage : EvalStage} {act : Current → Evaluation → State}
    (h : ∀ c e, s.current = some c → s.evaluation = some e → c.state = .evaluate → s.Acts (act c e)) :
    s.Acts (s.atStage stage act) := by
  unfold State.atStage
  split
  next c e hc he => exact .ite (fun hst => h c e hc he hst.1) fun _ => .refl s
  next => exact .refl s

/-- The evaluation moves on with no new segment. -/
theorem acts_evaluation {s : State} {e f : Evaluation} (he : s.evaluation = some e)
    (hf : f.remaining ⊆ e.remaining) : s.Acts { s with evaluation := some f } := by
  refine .run (.of_subset (.path rfl id) (fun _ => State.carries_self) (List.Subset.refl _) ?_)
    (lineConsistent_congr rfl rfl rfl rfl rfl rfl (by rw [he]; rfl))
  rintro _ ⟨⟩
  exact ⟨e, he, hf⟩

theorem acts_toStage {s : State} {e : Evaluation} (he : s.evaluation = some e) (stage : EvalStage) :
    s.Acts (s.toStage e stage) := acts_evaluation he (List.Subset.refl _)

theorem sameSetup_referenceAfter (p : Policy) (m : Measure) (now : Time) (w : WatchPoint) :
    w.sameSetup (referenceAfter p m now w) := by
  unfold referenceAfter
  split <;> exact ⟨rfl, rfl, rfl⟩

theorem remaining_afterReference (e : Evaluation) (m : Measure) : (e.afterReference m).remaining ⊆ e.remaining := by
  unfold Evaluation.afterReference
  split
  · exact List.nil_subset _
  · exact List.tail_subset _

theorem acts_referenceAction {s : State} {e : Evaluation} (he : s.evaluation = some e) (c : Current) (g : Segment) :
    s.Acts (s.referenceAction c e g) := by
  have hw : s.Acts (s.setWp c.work.pair 0 (referenceAfter e.policy (s.measure g c.work.periods c.len) s.epoch
      (s.wp c.work.pair 0))) := .records (.setWp _ _ _ (sameSetup_referenceAfter ..)) rfl
  exact hw.trans (acts_evaluation (e := e) he (by rw [remaining_settleStage]; exact remaining_afterReference ..))

/-- Apart from tracking, an action leaves the template and the centre lag. -/
theorem sameSetup_housingAfter (e : Evaluation) (k : SweepKind) (m : Measure) (now : Time) (w : WatchPoint) :
    w.sameSetup (housingAfter e k m now w) := by
  unfold housingAfter captured classified
  dsimp only
  split
  · split
    · exact ⟨rfl, rfl, rfl⟩
    · split <;> exact ⟨rfl, rfl, rfl⟩
  · exact ⟨rfl, rfl, rfl⟩

theorem template_tracked (s : State) (c : Current) (e : Evaluation) (g : Segment) (m : Measure) (w : WatchPoint) :
    (s.tracked c e g m w).template = w.template := by
  unfold State.tracked
  split <;> rfl

/-- A moved centre lag is legal (R25, R89). -/
theorem movedLag_bounds {t : Template} {nominal len centre offset : Nat} (hw : t.width / 2 ≤ 32) (h1 : 32 ≤ nominal)
    (h2 : nominal ≤ len - 33) (hlen : 2047 ≤ len) : nominal ≤ movedLag t nominal len centre offset + t.width / 2 ∧
      movedLag t nominal len centre offset ≤ nominal + t.width / 2 ∧ 32 ≤ movedLag t nominal len centre offset ∧
      movedLag t nominal len centre offset ≤ len - 33 := by
  unfold movedLag
  dsimp only
  generalize (centre : Int) + clampInt (-(t.trackLimit : Int)) t.trackLimit
    ((offset : Int) - ((t.width / 2 : Nat) : Int)) = x
  unfold clampInt
  omega

theorem acts_housingAction {s : State} {c : Current} {e : Evaluation} {g : Segment} (hc : s.current = some c)
    (he : s.evaluation = some e) (hg : g ∈ e.remaining) : s.Acts (s.housingAction c e g) := by
  set m := s.measure g c.work.periods c.len
  set old := s.wp c.work.pair g.housing
  set base := housingAfter e c.work.sweepKind m s.epoch old with hbase
  set new := s.tracked c e g m base with hnew
  obtain ⟨hbt, hbc, -⟩ : old.sameSetup base := sameSetup_housingAfter ..
  have htemplate : new.template = old.template := (template_tracked ..).trans hbt
  have hwrite : s.Acts (s.setWp c.work.pair g.housing new) := by
    refine .setWp _ _ fun k => ?_
    obtain ⟨ht, hh, ⟨hcur, -, -, -, heval, -⟩, hcentres⟩ := k
    have hhousing : g.housing ≤ 192 := heval e he g hg
    have hold := hcentres c.work.pair g.housing hhousing
    refine ⟨hhousing, ?_⟩
    have hwp := wp_setWp_same s c.work.pair g.housing new
    by_cases hmoves : tracks c.work.sweepKind e.degraded m base = true
    · have hcentre : new.centre =
          movedLag (s.template old.template) (s.nominalLag g.housing) s.len g.centre m.offset := by
        rw [hnew, State.tracked, if_pos hmoves, ← hbt, ← (hcur c hc).1]
      obtain ⟨hn1, hn2⟩ := nominalLag_bounds ht hh hhousing
      have hb := movedLag_bounds (centre := g.centre) (offset := m.offset) (half_width_le ht hold.1) hn1 hn2 ht.len_ge
      unfold State.centreLegal State.widthOf
      rw [hwp, htemplate, hcentre]
      exact ⟨hold.1, hb⟩
    · have hcentre : new.centre = old.centre := by rw [hnew, State.tracked, if_neg hmoves, hbc]
      exact centreLegal_congr (s := s) (by rw [hwp, htemplate]) (by rw [hwp, hcentre]) rfl rfl rfl hold
  have hpost (u : State) : u.Acts (u.postChange c.work.pair g.housing old new) :=
    .ite (fun _ => .post _ _) fun _ => .refl u
  have heval : ((s.setWp c.work.pair g.housing new).postChange c.work.pair g.housing old new).evaluation = some e := by
    unfold State.postChange
    split <;> exact he
  exact (hwrite.trans (hpost _)).trans (acts_evaluation heval (by
    rw [remaining_settleStage]; exact List.tail_subset _))

theorem acts_watchPointAction (s : State) : s.Acts (s.atStage .segments fun c e =>
    match e.remaining with
    | [] => s
    | g :: _ => if g.housing = 0 then s.referenceAction c e g else s.housingAction c e g) := by
  refine acts_atStage fun c e hc he _ => ?_
  cases hr : e.remaining with
  | nil => exact .refl s
  | cons g rest =>
    exact .ite (fun _ => acts_referenceAction he c g) fun _ => acts_housingAction hc he (hr ▸ List.mem_cons_self)

/-- The lead of a candidate is a housing of the observed list (R97, R99). -/
theorem leadLegal_scan (s : State) (p : Pair) (policy : Policy) : leadLegal (s.scan p policy) := by
  intro x hx
  unfold State.scan candidateOf at hx
  split at hx
  · cases hx
  next f hf =>
    cases hx
    have hmem : f ∈ s.observedList p := List.mem_of_find?_eq_some hf
    obtain ⟨h, hh, rfl⟩ := List.mem_map.mp hmem
    exact mem_repeaters.mp (List.mem_filter.mp hh).1

theorem acts_streakUpdate (s : State) : s.Acts (s.atStage .streak fun c e =>
    (s.setVerdict c.work.pair ((s.verdict c.work.pair).streakAfter (s.scan c.work.pair e.policy))).toStage e
      (((s.verdict c.work.pair).streakAfter (s.scan c.work.pair e.policy)).nextStage e.policy.confirmCount)) := by
  refine acts_atStage fun c e hc he _ => .trans (.setVerdict_confirmed _ _ ?_ fun k => ?_)
    (acts_toStage (s := s.setVerdict c.work.pair _) (e := e) he _)
  · unfold VerdictRegister.streakAfter
    split <;> rfl
  · unfold VerdictRegister.streakAfter
    split
    · exact (k.leads _).1
    · exact leadLegal_scan s c.work.pair e.policy

theorem acts_verdictClearing (s : State) : s.Acts (s.atStage .clearing fun c e =>
    (s.postCleared c.work.pair .replaced).toStage e .replacement) := by
  refine acts_atStage fun c e hc he _ => .trans (.postCleared _ _)
    (acts_toStage (s := s.postCleared c.work.pair .replaced) (e := e) ?_ _)
  unfold State.postCleared
  split <;> exact he

/-- A sweep is no automatic work: in EVALUATE none is current (R41). -/
theorem not_auto_in_evaluate {s : State} (k : s.isolationFollows) {c : Current} (hc : s.current = some c)
    (hst : c.state = .evaluate) : c.work.isCommand = false ∧ c.work.origin ≠ .auto := by
  obtain ⟨hline, -, -, -, hcur, -⟩ := k
  have hphase := ((lineConsistent_iff_lineAt hc).mp hline).phase
  rw [hst] at hphase
  have hsweep : c.work.isCommand = false := by
    simp only [LineState.allows, Bool.and_eq_true, Bool.not_eq_true'] at hphase
    exact hphase.1
  refine ⟨hsweep, fun ho => ?_⟩
  obtain ⟨-, h, hk, -⟩ := hcur c hc ho
  simp [Work.isCommand, hk] at hsweep

/-- In EVALUATE the register of the sweep's pair is written once its queued entry is withdrawn. -/
theorem acts_setVerdict_withdraw {s : State} {c : Current} (hc : s.current = some c) (hst : c.state = .evaluate)
    (v : VerdictRegister) (hleads : s.centresLegal → leadLegal v.candidate ∧ leadLegal v.confirmed) :
    s.Acts ((s.setVerdict c.work.pair v).withdraw (Work.ofPair c.work.pair)) := by
  have hw : s.Acts (s.withdraw (Work.ofPair c.work.pair)) := .withdraw _
  refine ⟨⟨rfl, ?_, id, hw.work, id, id, fun k => ?_, fun k => ?_⟩, rfl⟩
  · intro h
    obtain ⟨h1, h2, h3, h4, h5, h6, h7⟩ := h
    exact ⟨h1, h2, h3, h4, h5, h6, Memory.wf_write _ _ _ h7⟩
  · obtain ⟨hsweep, hauto⟩ := not_auto_in_evaluate k hc hst
    obtain ⟨hline, hone, hwork, hiso, hcur, hpairs⟩ := k
    have hgone : (s.withdraw (Work.ofPair c.work.pair)).isolationQueue = [] := by
      refine List.filter_eq_nil_iff.mpr fun w hw => ?_
      simp [Work.ofPair, hpairs c hc hsweep w hw]
    have hgone' : ((s.setVerdict c.work.pair v).withdraw (Work.ofPair c.work.pair)).isolationQueue = [] := hgone
    refine ⟨hline, by rw [hgone']; exact Nat.zero_le 1, hwork, by rw [hgone']; exact (fun w hw => nomatch hw),
      fun b hb ho => ?_, by rw [hgone']; exact (fun _ _ _ w hw => nomatch hw)⟩
    have hbc : b = c := Option.some.inj (hb.symm.trans hc)
    exact absurd (hbc ▸ ho) hauto
  · obtain ⟨htables, hhousings, ⟨hcur, hwork, hiso, halloc, heval, hverdicts⟩, hcentres⟩ := hw.centres k
    refine ⟨htables, hhousings, ⟨hcur, hwork, hiso, halloc, heval, fun q => ?_⟩, hcentres⟩
    change leadLegal ((s.setVerdict c.work.pair v).verdict q).candidate ∧
      leadLegal ((s.setVerdict c.work.pair v).verdict q).confirmed
    by_cases hq : q = c.work.pair
    · rw [hq, verdict_setVerdict_same]; exact hleads k
    · rw [verdict_setVerdict_other _ _ hq]; exact hverdicts q

theorem acts_verdictReplacement (s : State) : s.Acts (s.atStage .replacement fun c e =>
    ((s.setVerdict c.work.pair (s.verdict c.work.pair).replaced).withdraw (Work.ofPair c.work.pair)).toStage e
      (if (s.verdict c.work.pair).replaced.confirmed = none then .finished else .raising)) := by
  refine acts_atStage fun c e hc he hst =>
    .trans (acts_setVerdict_withdraw hc hst _ fun k => ?_)
      (acts_toStage (s := (s.setVerdict c.work.pair _).withdraw _) (e := e) he _)
  obtain ⟨-, -, ⟨-, -, -, -, -, hleads⟩, -⟩ := k
  have hcand := (hleads c.work.pair).1
  unfold VerdictRegister.replaced
  split
  · exact ⟨hcand, leadLegal_none⟩
  · next hx => exact ⟨hcand, hx ▸ hcand⟩

theorem acts_raise (s : State) (p : Pair) (x : Verdict) : s.Acts (s.raise p x) := by
  have hv : s.Acts (s.setVerdict p { s.verdict p with raised := s.epoch, postSwap := 0 }) :=
    .setVerdict_confirmed p _ rfl fun k => (k.leads p).1
  exact (hv.trans (.postVerdict _ _)).trans (.alarmVerdict _)

theorem acts_verdictRaise (s : State) : s.Acts (s.atStage .raising fun c e =>
    match (s.verdict c.work.pair).confirmed with
    | none => s.toStage e .finished
    | some x => (s.raise c.work.pair x).toStage e .isolation) := by
  refine acts_atStage fun c e hc he _ => ?_
  cases (s.verdict c.work.pair).confirmed with
  | none => exact acts_toStage he _
  | some x => exact (acts_raise s c.work.pair x).trans (acts_toStage (s := s.raise c.work.pair x) (e := e) he _)

/-- Automatic work placed for the sweep's pair, its former entry being withdrawn (R41, R106). -/
theorem acts_placeIsolation {s : State} {c : Current} {h : Nat} (hc : s.current = some c) (hst : c.state = .evaluate)
    (hv : (s.verdict c.work.pair).confirmed = some ⟨.amplifierDegraded, h⟩) :
    s.Acts (s.placeIsolation c.work.pair h) := by
  rw [placeIsolation_eq_placed]
  set u := s.withdraw (Work.ofPair c.work.pair) with hu
  have hgone (w : Work) (hw : w ∈ u.isolationQueue) : w.pair ≠ c.work.pair := by
    have := (List.mem_filter.mp hw).2
    simpa [Work.ofPair] using this
  refine (State.Acts.withdraw _).trans (.placed hgone (fun k => ?_) hv fun b hb => ?_)
  · obtain ⟨hsweep, -⟩ := not_auto_in_evaluate k (c := c) hc hst
    obtain ⟨-, -, -, -, -, hpair⟩ := k
    exact List.eq_nil_iff_forall_not_mem.mpr fun w hw => hgone w hw (hpair c hc hsweep w hw)
  · have hbc : b = c := Option.some.inj (hb.symm.trans hc)
    rw [hbc]

theorem acts_startIsolation {s : State} {c : Current} {x : Verdict} (hc : s.current = some c) (hst : c.state = .evaluate)
    (hv : (s.verdict c.work.pair).confirmed = some x) : s.Acts (s.startIsolation c.work.pair x) := by
  unfold State.startIsolation
  split
  next hk =>
    have hx : x = ⟨.amplifierDegraded, x.lead⟩ := by rw [← hk]
    exact .ite (fun _ => .setStatus _ _) fun _ =>
      .ite (fun _ => (acts_placeIsolation hc hst (hv.trans (congrArg some hx))).trans (.setStatus _ _))
        fun _ => .setAside _ _ _
  next => exact .ite (fun _ => .setStatus _ _) fun _ => .setAside _ _ _
  all_goals exact .setStatus _ _

theorem evaluation_setAside (s : State) (p : Pair) (h d : Nat) : (s.setAside p h d).evaluation = s.evaluation := by
  unfold State.setAside State.markQuarantine
  split <;> rfl

theorem evaluation_startIsolation (s : State) (p : Pair) (x : Verdict) :
    (s.startIsolation p x).evaluation = s.evaluation := by
  unfold State.startIsolation
  split
  · split
    · rfl
    · split
      · rfl
      · exact evaluation_setAside ..
  · split
    · rfl
    · exact evaluation_setAside ..
  all_goals rfl

theorem acts_isolationStart (s : State) : s.Acts (s.atStage .isolation fun c e =>
    match (s.verdict c.work.pair).confirmed with
    | none => s.toStage e .finished
    | some x => (s.startIsolation c.work.pair x).toStage e .finished) := by
  refine acts_atStage fun c e hc he hst => ?_
  cases hv : (s.verdict c.work.pair).confirmed with
  | none => exact acts_toStage he _
  | some x =>
    exact (acts_startIsolation hc hst hv).trans (acts_toStage ((evaluation_startIsolation ..).trans he) _)

theorem acts_escalate (s : State) (p : Pair) (policy : Policy) : s.Acts (s.escalate p policy) := by
  have hv : s.Acts (s.setVerdict p { s.verdict p with postSwap := (s.verdict p).postSwap + 1 }) :=
    .setVerdict_confirmed p _ rfl fun k => (k.leads p).1
  unfold State.escalate
  refine .ite (fun _ => ?_) fun _ => hv
  split
  · exact hv
  · exact .ite (fun _ => hv.trans (.setAside _ _ _)) fun _ => hv.trans (.setStatus _ _)

theorem evaluation_escalate (s : State) (p : Pair) (policy : Policy) :
    (s.escalate p policy).evaluation = s.evaluation := by
  unfold State.escalate
  dsimp only
  split
  · split
    · rfl
    · split
      · exact evaluation_setAside ..
      · rfl
  · rfl

theorem acts_postSwapEscalation (s : State) : s.Acts (s.atStage .escalation fun c e =>
    (s.escalate c.work.pair e.policy).toStage e .finished) :=
  acts_atStage fun _ _ _ he _ => (acts_escalate ..).trans (acts_toStage ((evaluation_escalate ..).trans he) _)

/-- Posting a cleared verdict changes the report queues alone. -/
theorem postCleared_frame (s : State) (p : Pair) (cause : ClearCause) :
    s.postCleared p cause = { s with queues := (s.postCleared p cause).queues } := by
  unfold State.postCleared
  split <;> rfl

theorem acts_baselineVerdictClearing (s : State) : s.Acts (s.atStage .rebaseline fun c e =>
    (((s.postCleared c.work.pair .rebaselined).setVerdict c.work.pair (verdictDefault c.work.pair.val)).withdraw
      (Work.ofPair c.work.pair)).toStage e .finished) := by
  refine acts_atStage fun c e hc he hst => ?_
  have hframe := postCleared_frame s c.work.pair .rebaselined
  have hc' : (s.postCleared c.work.pair .rebaselined).current = some c := by rw [hframe]; exact hc
  have he' : (s.postCleared c.work.pair .rebaselined).evaluation = some e := by rw [hframe]; exact he
  have written := acts_setVerdict_withdraw hc' hst (verdictDefault c.work.pair.val) fun _ =>
    ⟨leadLegal_none, leadLegal_none⟩
  exact ((State.Acts.postCleared c.work.pair .rebaselined).trans written).trans
    (acts_toStage (s := ((s.postCleared c.work.pair .rebaselined).setVerdict c.work.pair _).withdraw _) he' _)

theorem acts_answerAll (s : State) (l : List Handed) : s.Acts (s.answerAll l) := by
  induction l generalizing s with
  | nil => exact .refl s
  | cons h l ih => exact (State.Acts.answer s h _).trans (ih _)

theorem acts_answerDeferred (s : State) : s.Acts s.answerDeferred :=
  (State.Acts.client (t := { s with deferred := [] }) rfl id id).trans (acts_answerAll _ _)

theorem acts_evaluationDone (s : State) : s.Acts (s.atStage .finished fun c e =>
    (s.sweepEnds c.work c.work.sweepKind e.outcome e.evaluated e.saturated).answerDeferred) :=
  acts_atStage fun _ _ _ _ _ => (State.Acts.rests (.sweepEnds ..) (sweepEnds_rests ..)).trans (acts_answerDeferred _)

/-! ### The Command Unit -/

theorem acts_frameBitPeriodEnd (s : State) : s.Acts (s.atPeriodEnd .commandTx fun _ t =>
    if t.ends + 1 < 32 then
      { s with chipTimer := some t.takeEnd, cmu := { s.cmu with bit := s.cmu.bit + 1 } }
    else s) :=
  acts_atPeriodEnd fun _ _ _ ht _ => .ite (fun _ => acts_chipTimer ht rfl rfl) fun _ => .refl s

/-- A command waits for its answer in the state its operation calls for (R51). -/
theorem allows_waitState {w : Work} (hw : w.isCommand = true) : w.operation.waitState.allows w .roundTrip = true := by
  unfold Operation.waitState
  cases hb : w.operation.busy <;> simp [LineState.allows, hw, hb]

theorem waitState_cases (op : Operation) : op.waitState = .busyWait ∨ op.waitState = .responseWait := by
  cases op <;> simp [Operation.waitState, Operation.busy]

theorem acts_frameEnd (s : State) : s.Acts (s.atPeriodEnd .commandTx fun c t =>
    if t.ends + 1 < 32 then s
    else
      { s with chipTimer := some t.takeEnd, cmu := { s.cmu with phase := .roundTrip }
               current := some { c with state := c.work.operation.waitState } }) := by
  refine acts_atPeriodEnd fun c t hc ht hst => .ite (fun _ => .refl s) fun _ =>
    .run (.of_subset (.path rfl id) ?_ (List.Subset.refl _) fun e he => ⟨e, he, List.Subset.refl _⟩) fun h => ?_
  · rintro x ⟨⟩
    exact ⟨c, hc, rfl, rfl⟩
  · obtain ⟨phase, -, settle, limit, eval, cells⟩ := (lineConsistent_iff_lineAt hc).mp h
    rw [hst] at phase settle eval
    have hw : c.work.isCommand = true := by
      simp only [LineState.allows, Bool.and_eq_true] at phase
      exact phase.1
    have hwait := waitState_cases c.work.operation
    refine (lineConsistent_iff_lineAt rfl).mpr ⟨allows_waitState hw, ?_, settle.trans ?_, limit, eval.trans ?_, cells⟩
    · obtain e | e := hwait <;> rw [e] <;> rfl
    · obtain e | e := hwait <;> rw [e] <;> rfl
    · obtain e | e := hwait <;> rw [e] <;> rfl

/-- In the round trip a command waits, and the phase its first interval opens in goes with its state. -/
theorem allows_firstPhase {st : LineState} {w : Work} (h : st.allows w .roundTrip = true) :
    st.allows w w.operation.firstPhase = true := by
  cases hw : w.isCommand <;> cases st <;> simp_all [LineState.allows, Operation.firstPhase]

theorem acts_roundTripEnd (s : State) : s.Acts (match s.current, s.chipTimer with
    | some c, some t =>
      if s.cmu.phase = .roundTrip ∧ s.firstInstant c.len ≤ t.index then s.openIntervals c.work.operation else s
    | _, _ => s) := by
  split
  next c t hc ht =>
    refine .ite (fun hdue => .run (.of_same (.path rfl (State.LineStep.wf_clearSegments _)) rfl rfl rfl) fun h => ?_)
      fun _ => .refl s
    obtain ⟨phase, chip, settle, limit, eval, cells⟩ := (lineConsistent_iff_lineAt hc).mp h
    rw [hdue.1] at phase
    exact (lineConsistent_iff_lineAt (s := s.openIntervals _) hc).mpr
      ⟨allows_firstPhase phase, chip, settle, limit, eval, cells⟩
  next => exact .refl s

/-- A command in a response interval is on the line, neither in SELECT nor in EVALUATE. -/
theorem State.LineAt.intervalOpen {s : State} {c : Current} (h : s.LineAt c) (hp : s.cmu.phase.intervalOpen = true) :
    c.work.isCommand = true ∧ (c.state = .responseWait ∨ c.state = .busyWait ∨ c.state = .responseRx) := by
  have phase := h.phase
  generalize s.cmu.phase = ph at *
  cases hw : c.work.isCommand <;> cases hst : c.state <;> rw [hst] at phase <;> cases ph <;>
    simp_all [LineState.allows, CommandPhase.intervalOpen]

end Sys2Proof.Machine
end

section
/-! SUPPORT. What the classification of an interval, the client channels, the claim requests and the requests of the Table
Store keep. -/

namespace Sys2Proof.Machine

/-! ### A response interval -/

theorem enterTx_run {s : State} {c : Current} (hc : s.carries c) : s.Run (s.enterTx c) := by
  have hl : s.LineStep (s.enterTx c) := .enterTx c
  revert hl
  unfold State.enterTx
  dsimp only
  split
  · exact fun hl => .of_rests hl (losEnds_rests (c := { c with state := .commandTx }) rfl)
  · exact fun hl => .of_subset hl (fun x hx => by cases hx; exact hc) (List.Subset.refl _)
      fun e he => ⟨e, he, List.Subset.refl _⟩

/-- The end of an attempt in a response interval. -/
theorem acts_attemptEnds {s : State} {c : Current} (hc : s.current = some c) (hopen : s.cmu.phase.intervalOpen = true)
    (cap : Captured) (o : WorkOutcome) (st : Option Word) (tl : Option Telemetry) :
    s.Acts (s.attemptEnds c cap o st tl) := by
  refine .run ?_ fun h => ?_
  · unfold State.attemptEnds
    split
    · exact enterTx_run (State.carries_self hc)
    · exact .of_rests (.commandEnds ..) (commandEnds_rests ..)
  · obtain ⟨hw, hst⟩ := ((lineConsistent_iff_lineAt hc).mp h).intervalOpen hopen
    refine (attemptEnds_acts hc hw ?_ ?_ cap o st tl).line h
    · rintro e; simp [e] at hst
    · rintro e; simp [e] at hst

/-- The Command Unit moves to a phase that goes with the state of the current work. -/
theorem acts_cmu {s : State} {c : Current} {u : CommandUnit} (hc : s.current = some c)
    (hu : s.LineAt c → c.state.allows c.work u.phase = true) : s.Acts { s with cmu := u } := by
  refine .run (.of_same (.path rfl id) rfl rfl rfl) fun h => ?_
  have at' := (lineConsistent_iff_lineAt hc).mp h
  obtain ⟨-, chip, settle, limit, eval, cells⟩ := id at'
  exact (lineConsistent_iff_lineAt (s := { s with cmu := u }) hc).mpr ⟨hu at', chip, settle, limit, eval, cells⟩

/-- The Command Unit moves within its phase. -/
theorem acts_cmu_within {s : State} {u : CommandUnit} (hu : u.phase = s.cmu.phase) : s.Acts { s with cmu := u } :=
  .run (.of_same (.path rfl id) rfl rfl rfl) (lineConsistent_congr rfl rfl hu rfl rfl rfl rfl)

theorem acts_startFound {s : State} {c : Current} (hc : s.current = some c) (hp : s.cmu.phase = .startSearch) :
    s.Acts (s.startFound c) := by
  refine .run (.of_subset (.path rfl id) (fun x hx => by cases hx; exact ⟨c, hc, rfl, rfl⟩) (List.Subset.refl _)
    fun e he => ⟨e, he, List.Subset.refl _⟩) fun h => ?_
  have at' := (lineConsistent_iff_lineAt hc).mp h
  obtain ⟨hw, hst⟩ := at'.intervalOpen (by rw [hp]; rfl)
  obtain ⟨-, chip, settle, limit, eval, cells⟩ := at'
  refine (lineConsistent_iff_lineAt (s := s.startFound c) rfl).mpr ⟨?_, chip.trans ?_, settle.trans ?_, limit,
    eval.trans ?_, cells⟩
  · simp [LineState.allows, hw, State.startFound]
  all_goals obtain e | e | e := hst <;> rw [e] <;> rfl

theorem acts_startSearch {s : State} {c : Current} (hc : s.current = some c) (hp : s.cmu.phase = .startSearch)
    (cap : Captured) (lit : Bool) : s.Acts (s.startSearch c cap lit) :=
  .ite (fun _ => acts_startFound hc hp) fun _ => .ite (fun _ => acts_cmu_within rfl) fun _ =>
    acts_attemptEnds hc (by rw [hp]; rfl) _ _ _ _

theorem acts_readySearch {s : State} {c : Current} (hc : s.current = some c) (hp : s.cmu.phase = .readySearch)
    (cap : Captured) (number : Nat) (lit : Bool) : s.Acts (s.readySearch c cap number lit) := by
  refine .ite (fun _ => acts_cmu hc fun h => ?_) fun _ => .ite (fun _ =>
    acts_attemptEnds hc (by rw [hp]; rfl) _ _ _ _) fun _ => acts_cmu_within rfl
  have phase := h.phase
  rw [hp] at phase
  cases hw : c.work.isCommand <;> cases hst : c.state <;> simp_all [LineState.allows]

theorem acts_dataInterval {s : State} {c : Current} (hc : s.current = some c) (hp : s.cmu.phase = .data) (cap : Captured)
    (lit : Bool) : s.Acts (s.dataInterval c cap lit) :=
  .ite (fun _ => acts_cmu_within rfl) fun _ => acts_attemptEnds hc (by rw [hp]; rfl) _ _ _ _

theorem acts_classifiedInterval {s : State} {c : Current} (hc : s.current = some c) (cap : Captured) (number : Nat)
    (lit : Bool) : s.Acts (s.classifiedInterval c cap number lit) := by
  unfold State.classifiedInterval
  split
  next hp => exact acts_readySearch hc hp cap number lit
  next hp => exact acts_startSearch hc hp cap lit
  next hp => exact acts_dataInterval hc hp cap lit
  all_goals exact .refl s

theorem headInterval_eq_some {s : State} {i : Interval} {c : Current} {cap : Captured}
    (h : s.headInterval = some (i, c, cap)) : s.current = some c := by
  unfold State.headInterval at h
  split at h
  · next hc _ => cases h; exact hc
  · cases h

/-- The oldest interval leaves. -/
theorem acts_intervals (s : State) (l : List Interval) : s.Acts { s with intervals := l } :=
  .run (.of_same (.path rfl id) rfl rfl rfl) id

theorem acts_intervalClassified (s : State) : s.Acts (match s.headInterval with
    | none => s
    | some (i, c, cap) =>
      ({ s with intervals := s.intervals.tail } : State).classifiedInterval c cap i.number
        (intervalLit cap c.len i.values)) := by
  split
  next => exact .refl s
  next i c cap h =>
    have hc := headInterval_eq_some h
    exact (acts_intervals s _).trans (acts_classifiedInterval (s := { s with intervals := s.intervals.tail }) hc cap _ _)

theorem acts_busyTimeout (s : State) : s.Acts (match s.headInterval with
    | none => s
    | some (i, c, cap) =>
      if s.cmu.timesOut cap i.number (intervalLit cap c.len i.values) then
        ({ s with intervals := s.intervals.tail } : State).attemptEnds c cap .busyTimeout none none
      else s) := by
  split
  next => exact .refl s
  next i c cap h =>
    refine .ite (fun hout => ?_) fun _ => .refl s
    have hp : s.cmu.phase = .readySearch := by
      simp only [CommandUnit.timesOut, Bool.and_eq_true, decide_eq_true_eq] at hout
      exact hout.1.1
    have hc := headInterval_eq_some h
    have hopen : s.cmu.phase.intervalOpen = true := by rw [hp]; rfl
    exact (acts_intervals s _).trans (acts_attemptEnds (s := { s with intervals := s.intervals.tail }) hc hopen cap _ _ _)

/-! ### The client channels -/

theorem acts_setCcu (s : State) (ch : Channel) (u : ChannelUnit) : s.Acts (s.setCcu ch u) := .client rfl id id

theorem acts_handOver (s : State) (ch : Channel) (r : Request) (sel : Pair) (params : List Word) :
    s.Acts (s.handOver ch r sel params) := .client rfl id id

theorem acts_endTransaction (s : State) (ch : Channel) : s.Acts (s.endTransaction ch) := .client rfl id id

theorem acts_portCleared (s : State) (ch : Channel) : s.Acts (s.portCleared ch) := .client rfl id id

theorem acts_openRequest (s : State) (ch : Channel) (r : Request) (sel : Pair) : s.Acts (s.openRequest ch r sel) :=
  .ite (fun _ => acts_handOver ..) fun _ => acts_setCcu ..

theorem acts_functionTaken (s : State) (ch : Channel) (w : Word) : s.Acts (s.functionTaken ch w) := by
  unfold State.functionTaken
  split
  · exact acts_portCleared s ch
  · exact (acts_endTransaction s ch).trans (acts_openRequest ..)
  · exact (acts_endTransaction s ch).trans (acts_setCcu ..)

theorem acts_strayOffered (s : State) (ch : Channel) : s.Acts (s.strayOffered ch) := by
  unfold State.strayOffered
  split
  case h_4 => exact .refl s
  case h_5 => exact .refl s
  all_goals exact acts_setCcu ..

theorem acts_parameterTaken (s : State) (ch : Channel) (o : OpenRequest) (w : Word) :
    s.Acts (s.parameterTaken ch o w) :=
  .ite (fun _ => acts_setCcu ..) fun _ => acts_handOver ..

theorem acts_answerArrives (s : State) (ch : Channel) (a : Answer) : s.Acts (s.answerArrives ch a) := by
  have gone : s.Acts { s with answers := s.answers.eraseP fun a => decide (a.channel = ch) } := .client rfl id id
  exact .ite (fun _ => gone.trans (acts_setCcu ..)) fun _ => gone

/-! ### Claims -/

/-- A claim record written, whose owner is present. -/
theorem acts_setClaim {s : State} (r : Resource) {c : Claim}
    (hc : s.ownersPresent → ∀ ch, c.owner = some ch → PerChannel.get s.views ch = true) : s.Acts (s.setClaim r c) := by
  refine .client (by cases r <;> rfl) (by cases r <;> exact id) fun h r' ch hr => ?_
  have hviews : (s.setClaim r c).views = s.views := by cases r <;> rfl
  rw [hviews]
  by_cases he : (s.setClaim r c).claim r' = c
  · exact hc h ch (he ▸ hr)
  · have hother : (s.setClaim r c).claim r' = s.claim r' := by
      revert he
      cases r <;> cases r' <;> simp [State.setClaim, State.claim]
    exact h r' ch (hother ▸ hr)

/-- A claim rule leaves the record to nobody, to the caller, or to its owner. -/
def ClaimResult.staysWith (x : ClaimResult) (ch : Channel) (c : Claim) : Prop :=
  x.record.owner = none ∨ x.record.owner = some ch ∨ x.record.owner = c.owner

section Rules

variable (ch : Channel) (tag : Word) (now : Time) (c : Claim)

theorem claimRule_staysWith : (claimRule ch tag now c).staysWith ch c := by
  unfold claimRule ClaimResult.staysWith
  split
  · exact .inr (.inl rfl)
  · split <;> exact .inr (.inr rfl)

theorem claimIfCleanRule_staysWith (unclean : Bool) : (claimIfCleanRule unclean ch tag now c).staysWith ch c := by
  unfold claimIfCleanRule
  split
  · exact .inr (.inr rfl)
  · split
    · exact .inr (.inr rfl)
    · exact claimRule_staysWith ch tag now c

theorem checkRule_staysWith : (checkRule ch tag c).staysWith ch c := by
  unfold checkRule
  split
  · split <;> exact .inr (.inr rfl)
  · exact .inr (.inr rfl)

theorem takeoverRule_staysWith : (takeoverRule ch tag now c).staysWith ch c := by
  unfold takeoverRule
  split
  · exact .inr (.inr rfl)
  · split
    · exact .inr (.inr rfl)
    · split
      · exact .inr (.inl rfl)
      · exact .inr (.inr rfl)

theorem releaseRule_staysWith : (releaseRule ch now c).staysWith ch c := by
  unfold releaseRule
  split
  · exact .inl rfl
  · exact .inr (.inr rfl)

end Rules

theorem acts_claimDecided {s : State} (h : Handed) (r : Resource) {x : ClaimResult}
    (hv : PerChannel.get s.views h.channel = true) (hx : x.staysWith h.channel (s.claim r)) :
    s.Acts (s.claimDecided h r x) := by
  have set : s.Acts (s.setClaim r x.record) := acts_setClaim r fun k ch hch => by
    obtain e | e | e := hx
    · rw [e] at hch; cases hch
    · rw [e] at hch; cases hch; exact hv
    · exact k r ch (e ▸ hch)
  have posted : s.Acts ((s.setClaim r x.record).postTakenOver r x.lost) := by
    cases x.lost with
    | none => exact set
    | some o => exact set.trans (.postHome _ _)
  exact posted.trans (.answer _ _ _)

theorem acts_claimRequest {s : State} (h : Handed) (openToObserve : Bool) {rule : Claim → ClaimResult}
    (hrule : ∀ c, (rule c).staysWith h.channel c) : s.Acts (s.claimRequest h openToObserve rule) := by
  refine .ite (fun hv => ?_) fun _ => .refl s
  refine .ite (fun _ => .answer _ _ _) fun _ => ?_
  split
  · exact .answer _ _ _
  · exact acts_claimDecided h _ (Bool.and_eq_true_iff.mp hv).1 (hrule _)

/-! ### Presence -/

theorem claim_releaseLost (s : State) (ch : Channel) (r r' : Resource) :
    (s.releaseLost ch r).claim r' =
      if r' = r ∧ (s.claim r).owner = some ch then ⟨none, 0, s.epoch⟩ else s.claim r' := by
  unfold State.releaseLost State.holds
  cases r <;> cases r' <;> simp only [decide_eq_true_eq, true_and, false_and, if_false, reduceCtorEq] <;> split <;> rfl

/-- A release changes the claim records and the report queues. -/
theorem releaseLost_frame (s : State) (ch : Channel) (r : Resource) : s.releaseLost ch r = { s with
    lineClaim := (s.releaseLost ch r).lineClaim, tablesClaim := (s.releaseLost ch r).tablesClaim
    queues := (s.releaseLost ch r).queues } := by
  unfold State.releaseLost
  split
  · cases r <;> rfl
  · rfl

theorem lossAtClaims_frame (s : State) (ch : Channel) : s.lossAtClaims ch = { s with
    views := PerChannel.set s.views ch false, lineClaim := (s.lossAtClaims ch).lineClaim
    tablesClaim := (s.lossAtClaims ch).tablesClaim, queues := (s.lossAtClaims ch).queues } := by
  unfold State.lossAtClaims
  rw [releaseLost_frame, releaseLost_frame]

/-- After a presence loss the channel owns nothing (R149). -/
theorem claim_lossAtClaims (s : State) (ch : Channel) (r : Resource) : (s.lossAtClaims ch).claim r =
    if (s.claim r).owner = some ch then ⟨none, 0, s.epoch⟩ else s.claim r := by
  have hepoch : (State.releaseLost { s with views := PerChannel.set s.views ch false } ch .line).epoch = s.epoch := by
    rw [releaseLost_frame]
  unfold State.lossAtClaims
  rw [claim_releaseLost, claim_releaseLost, claim_releaseLost, hepoch]
  cases r <;> simp only [reduceCtorEq, false_and, true_and, if_false] <;> rfl

theorem reportsBounded_releaseLost {s : State} (ch : Channel) (r : Resource) (h : s.reportsBounded) :
    (s.releaseLost ch r).reportsBounded := by
  unfold State.releaseLost
  split
  · have hset : (s.setClaim r ⟨none, 0, s.epoch⟩).reportsBounded := by cases r <;> exact h
    exact (State.Acts.postHome _ _).reports hset
  · exact h

theorem acts_lossAtClaims (s : State) (ch : Channel) : s.Acts (s.lossAtClaims ch) := by
  have client : s.lossAtClaims ch = s.withClient (s.lossAtClaims ch) := by
    unfold State.lossAtClaims State.releaseLost
    split <;> split <;> rfl
  refine .client client (fun h => ?_) fun h r d hr => ?_
  · exact reportsBounded_releaseLost ch _ (reportsBounded_releaseLost ch _ h)
  · rw [claim_lossAtClaims] at hr
    have hviews : (s.lossAtClaims ch).views = PerChannel.set s.views ch false := by rw [lossAtClaims_frame]
    split at hr
    · cases hr
    · next ho =>
      have hd : d ≠ ch := by rintro rfl; exact ho hr
      rw [hviews, PerChannel.get_set_other _ _ hd]
      exact h r d hr

theorem acts_lossTaken (s : State) (ch : Channel) (before : Nat) : s.Acts (s.lossTaken ch before) := by
  have gone : s.Acts { s with workQueue := s.workQueue.filter fun w => !Work.ofChannel ch w } :=
    .dequeue List.filter_sublist (List.Sublist.refl _)
  exact ((gone.trans (.postCancelledAll _)).trans (acts_lossAtClaims _ ch)).trans (.postCancelledAll _)

theorem acts_presenceLost (s : State) (ch : Channel) (before : Nat) :
    s.Acts ((((s.markStale ch).markLost ch).setCcu ch (.reset false)).lossTaken ch before) := by
  have marked : s.Acts (((s.markStale ch).markLost ch).setCcu ch (.reset false)) := .client rfl id id
  exact marked.trans (acts_lossTaken ..)

theorem acts_presenceReturned (s : State) (ch : Channel) :
    s.Acts { s.setCcu ch (.reset true) with views := PerChannel.set s.views ch true } := by
  refine .client rfl id fun h r d hr => ?_
  change PerChannel.get (PerChannel.set s.views ch true) d = true
  by_cases hd : d = ch
  · rw [hd, PerChannel.get_set_same]
  · rw [PerChannel.get_set_other _ _ hd]
    exact h r d hr

/-! ### Requests judged by their checks -/

theorem firstFailure_eq_none_iff {l : List (Bool × Status)} : firstFailure l = none ↔ ∀ c ∈ l, c.1 = false := by
  induction l with
  | nil => simp [firstFailure]
  | cons c l ih =>
    obtain ⟨b, st⟩ := c
    rw [firstFailure_cons]
    cases b <;> simp [ih]

/-- A request judged check by check keeps what its action keeps once every check has passed. -/
theorem State.Acts.decided {s t : State} {h : Handed} {l : List (Bool × Status)}
    (ht : (∀ c ∈ l, c.1 = false) → s.Acts t) : s.Acts (s.decided h l t) := by
  unfold State.decided
  split
  · exact .answer _ _ _
  · next hnone => exact ht (firstFailure_eq_none_iff.mp hnone)

theorem State.Acts.accepted {s t : State} (ht : s.Acts t) (h : Handed) (clamped : Bool) (data : List Word) :
    s.Acts (t.accepted h clamped data) := ht.trans (.answer _ _ _)

theorem acts_ackAlarm (s : State) (h : Handed) : s.Acts (s.ackAlarm h) :=
  .decided fun _ => .client rfl id id

theorem not_outside {lo hi n : Nat} (h : outside lo hi n = false) : lo ≤ n ∧ n ≤ hi := by
  simp only [outside, Bool.or_eq_false_iff, decide_eq_false_iff_not] at h
  omega

theorem acts_writeLineSetup (s : State) (h : Handed) : s.Acts (s.writeLineSetup h) := by
  refine .decided fun passed => .accepted ?_ h false []
  simp only [List.forall_mem_cons, setupOutside, State.lineNotIdle, Bool.or_eq_false_iff] at passed
  obtain ⟨-, ⟨⟨⟨hm, hk⟩, hsettle⟩, href⟩, ⟨⟨⟨hcur, -⟩, -⟩, -⟩, horder, -⟩ := passed
  have m := not_outside hm
  have k := not_outside hk
  have settle := not_outside hsettle
  have ref := not_outside href
  exact .storeLineSetup ⟨m.1, m.2, k.2, ref.1, ref.2, settle.1, settle.2⟩ (by simpa using hcur)
    (by rw [horder]; exact Bool.false_ne_true)

theorem housingEntry?_fields {h : Handed} {e : HousingEntry} (he : h.housingEntry? = some e) :
    e.present = true ∧ e.address = h.word 2 ∧ e.lag = h.word 3 := by
  unfold Handed.housingEntry? at he
  split at he
  · cases he; exact ⟨rfl, rfl, rfl⟩
  · cases he

theorem acts_writeHousing (s : State) (h : Handed) : s.Acts (s.writeHousing h) := by
  unfold State.writeHousing
  dsimp only
  split
  · refine .decided fun passed => .accepted ?_ h false []
    simp only [List.forall_mem_cons, notRepeater, Bool.or_eq_false_iff] at passed
    obtain ⟨-, ⟨⟨⟨hn, haddress⟩, hlag⟩, hentry⟩, -, htaken, horder, -⟩ := passed
    obtain ⟨e, he⟩ := Option.isSome_iff_exists.mp (Option.isNone_eq_false_iff.mp hentry)
    obtain ⟨hpresent, ha, hl⟩ := housingEntry?_fields he
    have n := not_outside hn
    have address := not_outside haddress
    have lag := not_outside hlag
    have order : ¬ s.housingLagOrder (h.word 0) (h.word 3) = true := by rw [horder]; exact Bool.false_ne_true
    rw [he]
    refine .storeHousing n.1 n.2 fun k => .inr ⟨hpresent, ?_⟩
    have hh : s.housingsLegal := k.2.1
    change 1 ≤ e.address ∧ e.address ≤ 4094 ∧ e.lag ≤ s.len - 33 ∧ s.lineSetup.refLag < e.lag ∧
      (∀ i, 1 ≤ i → i ≤ 192 → i ≠ h.word 0 → (s.housing i).present = true → (s.housing i).address ≠ e.address) ∧
      (∀ i, 1 ≤ i → i < h.word 0 → (s.housing i).present = true → (s.housing i).lag < e.lag) ∧
      ∀ i, h.word 0 < i → i ≤ 192 → (s.housing i).present = true → e.lag < (s.housing i).lag
    rw [ha, hl]
    refine ⟨address.1, address.2, lag.2, ?_, fun i h1 h2 hi hp hsame => ?_, fun i h1 hi hp => ?_, fun i hi h2 hp => ?_⟩
    · exact lags_below_of_housingLagOrder hh n.1 n.2 order (i := 0) n.1 rfl
    · have taken : ¬ s.addressTaken (h.word 0) (h.word 2) = true := by rw [htaken]; exact Bool.false_ne_true
      exact taken (addressTaken_iff.mpr ⟨i, h1, h2, hi, hp, hsame⟩)
    · have below := lags_below_of_housingLagOrder hh n.1 n.2 order hi (by simp [State.present, hp])
      rwa [State.nominalLag, if_neg (by omega)] at below
    · exact lags_above_of_housingLagOrder hh n.1 n.2 order hi h2 hp
  · refine .decided fun passed => .accepted ?_ h false []
    simp only [List.forall_mem_cons, notRepeater] at passed
    obtain ⟨-, hn, -⟩ := passed
    have n := not_outside hn
    exact .storeHousing n.1 n.2 fun _ => .inl rfl
  · exact .decided fun _ => .answer _ _ _

theorem acts_writeTemplate (s : State) (h : Handed) : s.Acts (s.writeTemplate h) := by
  refine .decided fun passed => .accepted ?_ h _ []
  simp only [List.forall_mem_cons, Bool.or_eq_false_iff, decide_eq_false_iff_not] at passed
  obtain ⟨-, ⟨⟨hn, hodd⟩, hwidth⟩, -⟩ := passed
  have n := not_outside hn
  have width := not_outside hwidth
  exact .storeTemplate _ (by omega) (by omega) width.1 width.2

theorem acts_writeWatchPoint (s : State) (h : Handed) : s.Acts (s.writeWatchPoint h) := by
  refine .decided fun passed => .accepted ?_ h false []
  simp only [List.forall_mem_cons, notHousing, Bool.or_eq_false_iff] at passed
  obtain ⟨-, ⟨⟨⟨⟨-, hn⟩, ht⟩, -⟩, -⟩, -⟩ := passed
  have t := not_outside ht
  exact .configure _ _ _ (not_outside hn).2 (by omega)

/-- The range of an enable or a disable that has passed its checks ends within the table. -/
theorem rangeChecks_passed {s : State} {h : Handed} (passed : ∀ c ∈ s.rangeChecks h, c.1 = false) : h.word 1 ≤ 192 := by
  simp only [State.rangeChecks, List.forall_mem_cons, notHousing, Bool.or_eq_false_iff] at passed
  obtain ⟨-, ⟨-, hlast⟩, -⟩ := passed
  exact (not_outside hlast).2

theorem acts_setEnabled_range {s : State} (p : Pair) {first last : Nat} (hl : last ≤ 192) (f : Nat → Bool) (b : Bool) :
    s.Acts (s.setEnabled p ((housingRange first last).filter f) b) :=
  .setEnabled p ((housingRange_nodup first last).filter _) (fun i hi => by
    have := mem_housingRange.mp (List.mem_filter.mp hi).1
    omega) b

theorem acts_enableWatchPoints (s : State) (h : Handed) : s.Acts (s.enableWatchPoints h) :=
  .decided fun passed => .accepted (acts_setEnabled_range _ (rangeChecks_passed passed) _ _) h false _

theorem acts_disableWatchPoints (s : State) (h : Handed) : s.Acts (s.disableWatchPoints h) :=
  .decided fun passed => .accepted (acts_setEnabled_range _ (rangeChecks_passed passed) _ _) h false _

theorem acts_writeBaseline (s : State) (h : Handed) : s.Acts (s.writeBaseline h) :=
  .decided fun _ => .accepted (.storeBaseline ..) h false []

theorem clampTo_bounds {lo hi n : Nat} (h : lo ≤ hi) : lo ≤ clampTo lo hi n ∧ clampTo lo hi n ≤ hi := by
  unfold clampTo
  split
  · omega
  · split <;> omega

theorem policy?_legal {h : Handed} {v : Policy} (hv : h.policy? = some v)
    (order : thresholdsOrdered (h.word 0) (h.word 1) (h.word 2) = true) : v.legal := by
  obtain ⟨o1, o2, o3, o4⟩ := of_decide_eq_true order
  unfold Handed.policy? at hv
  split at hv
  · cases hv
    have c (lo hi i : Nat) (h' : lo ≤ hi) := clampTo_bounds (n := h.word i) h'
    exact ⟨o1, o2, o3, o4, (c 0 32767 3 (by decide)).2, (c 1 32767 5 (by decide)).1, (c 1 32767 5 (by decide)).2,
      (c 1 8 6 (by decide)).1, (c 1 8 6 (by decide)).2, (c 1 4 7 (by decide)).1, (c 1 4 7 (by decide)).2,
      (c 0 256 8 (by decide)).2, (c 1 16 12 (by decide)).1, (c 1 16 12 (by decide)).2, (c 1 255 13 (by decide)).1,
      (c 1 255 13 (by decide)).2⟩
  · cases hv

theorem acts_writePairPolicy (s : State) (h : Handed) : s.Acts (s.writePairPolicy h) := by
  refine .decided fun passed => .accepted ?_ h _ []
  simp only [List.forall_mem_cons, Bool.or_eq_false_iff, Bool.not_eq_false'] at passed
  obtain ⟨-, ⟨-, hpolicy⟩, -, horder, -⟩ := passed
  obtain ⟨v, hv⟩ := Option.isSome_iff_exists.mp (Option.isNone_eq_false_iff.mp hpolicy)
  rw [hv]
  exact .storePolicy s _ (policy?_legal hv horder)

theorem acts_setQuarantine (s : State) (h : Handed) : s.Acts (s.setQuarantine h) :=
  .decided fun _ => .accepted ((State.Acts.markQuarantine _ _ _ _).trans (.withdrawTarget ..)) h _ []

theorem acts_clearQuarantine (s : State) (h : Handed) : s.Acts (s.clearQuarantine h) :=
  .decided fun _ => .accepted ((State.Acts.unmarkQuarantine _ _ _).trans (.withdrawTarget ..)) h false []

end Sys2Proof.Machine
end

section
/-! SUPPORT. What the reads, the requests of the line and of the Report Unit, the take and the inputs of the line keep. -/

namespace Sys2Proof.Machine

/-! ### Reads -/

theorem acts_readPair (s : State) (h : Handed) : s.Acts (s.readPair h) :=
  .ite (fun _ => .client rfl id id) fun _ => .answer _ _ _

theorem acts_readWatchPoints (s : State) (h : Handed) : s.Acts (s.readWatchPoints h) :=
  .ite (fun _ => .answer _ _ _) fun _ => acts_readPair s h

theorem acts_readVerdict (s : State) (h : Handed) : s.Acts (s.readVerdict h) :=
  .ite (fun _ => .answer _ _ _) fun _ => acts_readPair s h

theorem acts_readHousing (s : State) (h : Handed) : s.Acts (s.readHousing h) :=
  .ite (fun _ => .answer _ _ _) fun _ => .answer _ _ _

/-! ### The Report Unit -/

/-- A report queue rewritten with no more records than it held. -/
theorem acts_setQueue {s : State} (q : RQ) {x : ReportQueue}
    (hx : x.records.length ≤ (PerQueue.get s.queues q).records.length) :
    s.Acts { s with queues := PerQueue.set s.queues q x } := by
  refine .client rfl (fun h r => ?_) id
  change (PerQueue.get (PerQueue.set s.queues q x) r).records.length ≤ 64
  by_cases hr : r = q
  · rw [hr, PerQueue.get_set_same]; exact hx.trans (h q)
  · rw [PerQueue.get_set_other _ _ hr]; exact h r

theorem acts_makeHome (s : State) (q : RQ) (c : Option Channel) (home : Bool) : s.Acts (s.makeHome q c home) := by
  unfold State.makeHome
  split
  · exact .ite (fun _ => .client rfl id id) fun _ => .refl s
  · exact .refl s

theorem acts_bindQueue (s : State) (h : Handed) : s.Acts (s.bindQueue h) := by
  unfold State.bindQueue
  split
  · exact .answer _ _ _
  next q c home _ _ _ _ =>
    have bound : s.Acts (s.bind q c) := acts_setQueue q (le_refl _)
    exact .ite (fun _ => .answer _ _ _) fun _ => (bound.trans (acts_makeHome _ q c home)).trans (.answer _ _ _)
  · exact .answer _ _ _

theorem acts_readQueue (s : State) (h : Handed) : s.Acts (s.readQueue h) := by
  unfold State.readQueue
  dsimp only
  split
  · exact .answer _ _ _
  next q _ =>
    have read := acts_setQueue (s := s) q (x := (PerQueue.get s.queues q).afterRead (clampTo 1 16 (h.word 1)))
      (by simp [ReportQueue.afterRead])
    exact .ite (fun _ => .answer _ _ _) fun _ => read.trans (.answer _ _ _)

/-! ### Requests of the line -/

theorem queueFull_eq_false {s : State} (h : s.queueFull = false) : s.workQueue.length < 16 := by
  exact Nat.lt_of_not_le (of_decide_eq_false h)

theorem acts_startSweep (s : State) (h : Handed) : s.Acts (s.startSweep h) := by
  refine .decided fun passed => ?_
  simp only [List.forall_mem_cons] at passed
  obtain ⟨-, -, hroom, -⟩ := passed
  exact (State.Acts.enqueue (origin := .channel h.channel) _ (queueFull_eq_false hroom) nofun
    fun _ => Nat.zero_le _).trans (.answer _ _ _)

theorem acts_sendCommand (s : State) (h : Handed) : s.Acts (s.sendCommand h) := by
  refine .decided fun passed => ?_
  simp only [List.forall_mem_cons, notHousing, Bool.or_eq_false_iff] at passed
  obtain ⟨-, ⟨⟨-, hn⟩, -⟩, hroom, -⟩ := passed
  refine (State.Acts.enqueue (origin := .channel h.channel) _ (queueFull_eq_false hroom) nofun fun _ => ?_).trans
    (.answer _ _ _)
  exact (not_outside hn).2

theorem currentByTag_eq_some {s : State} {n : Nat} {c : Current} (h : s.currentByTag n = some c) :
    s.current = some c := (Option.filter_eq_some_iff.mp h).1

theorem acts_cancelQueued (s : State) (n : Nat) (w : Work) : s.Acts (s.cancelQueued n w) := by
  have gone : s.Acts { s with workQueue := s.workQueue.eraseP (Work.hasTag n)
                              isolationQueue := s.isolationQueue.eraseP (Work.hasTag n) } :=
    .dequeue List.eraseP_sublist List.eraseP_sublist
  have posted := gone.trans (.postCancelled w)
  exact .ite (fun _ => posted.trans (.setStatus _ _)) fun _ => posted

theorem acts_cancelByTag (s : State) (n : Nat) : s.Acts (s.cancelByTag n) := by
  unfold State.cancelByTag
  split
  next c hc => exact .abort (currentByTag_eq_some hc)
  next =>
    split
    · exact acts_cancelQueued ..
    · exact .refl s

theorem acts_cancelWork (s : State) (h : Handed) : s.Acts (s.cancelWork h) :=
  .decided fun _ => (acts_cancelByTag s _).trans (.answer _ _ _)

/-- An abort of the current work leaves none. -/
theorem current_abortCurrent (s : State) : s.abortCurrent.current = none := by
  unfold State.abortCurrent
  split
  next hc => exact hc
  next c hc => exact (abort_rests hc).1

theorem acts_abortCurrent (s : State) : s.Acts s.abortCurrent := by
  unfold State.abortCurrent
  split
  · exact .refl s
  next c hc => exact .abort hc

/-- Verdict Registers cleared with no automatic work queued or current. -/
theorem acts_clearVerdicts {s : State} (hq : s.isolationQueue = []) (hc : s.current = none) (l : List Pair) :
    s.Acts (s.clearVerdicts l) := by
  induction l generalizing s with
  | nil => exact .refl s
  | cons p l ih =>
    have hframe := postCleared_frame s p .lineReset
    have hq' : (s.postCleared p .lineReset).isolationQueue = [] := by rw [hframe]; exact hq
    have hc' : (s.postCleared p .lineReset).current = none := by rw [hframe]; exact hc
    have cleared : (s.postCleared p .lineReset).Acts ((s.postCleared p .lineReset).setVerdict p (verdictDefault p.val)) :=
      .setVerdict p _ (fun _ w hw => by rw [hq'] at hw; cases hw) (fun _ c h => by rw [hc'] at h; cases h)
        fun _ => ⟨leadLegal_none, leadLegal_none⟩
    exact ((State.Acts.postCleared p .lineReset).trans cleared).trans (ih hq' hc')

theorem clearVerdicts_frame (s : State) (l : List Pair) : s.clearVerdicts l = { s with
    verdicts := (s.clearVerdicts l).verdicts, queues := (s.clearVerdicts l).queues } := by
  induction l generalizing s with
  | nil => rfl
  | cons p l ih =>
    rw [State.clearVerdicts, ih, postCleared_frame]
    rfl

/-- Selector Control back at rest, with no work current (R10, R56). -/
theorem acts_selectorRests {s : State} (hc : s.current = none) :
    s.Acts { s with position := none, requested := none, settleTimer := none } := by
  refine .run (.of_same (.path rfl id) rfl rfl rfl) fun h => ?_
  obtain ⟨ha, hp, ht, -, he⟩ := h.of_none hc
  exact lineConsistent_of_none hc ha hp ht rfl he

theorem acts_emptyQueues (s : State) : s.Acts s.emptyQueues := by
  have emptied : s.Acts { s with workQueue := [], isolationQueue := [] } :=
    .dequeue (List.nil_sublist _) (List.nil_sublist _)
  exact emptied.trans (.postCancelledAll s.workQueue)

theorem emptyQueues_frame (s : State) : s.emptyQueues = { s with
    workQueue := [], isolationQueue := [], queues := s.emptyQueues.queues } := by
  unfold State.emptyQueues
  rw [postCancelledAll_frame]

theorem acts_lineReset (s : State) : s.Acts s.lineReset := by
  have hq : s.abortCurrent.emptyQueues.isolationQueue = [] := by rw [emptyQueues_frame]
  have hc : s.abortCurrent.emptyQueues.current = none := by
    rw [emptyQueues_frame]; exact current_abortCurrent s
  have hc' : (s.abortCurrent.emptyQueues.clearVerdicts allPairs).current = none := by
    rw [clearVerdicts_frame]; exact hc
  have cleared := ((acts_abortCurrent s).trans (acts_emptyQueues _)).trans (acts_clearVerdicts hq hc allPairs)
  exact (cleared.trans (acts_selectorRests hc')).trans (acts_answerDeferred _)

theorem acts_resetLine (s : State) (h : Handed) : s.Acts (s.resetLine h) :=
  .decided fun _ => (acts_lineReset s).trans (.answer _ _ _)

/-! ### The take and the inputs of the line -/

theorem nextWork_isolation {s : State} {w : Work} {rest : List Work} (h : s.isolationQueue = w :: rest) :
    s.nextWork = some (w, { s with isolationQueue := rest }) := by
  simp only [State.nextWork, h]

theorem nextWork_work {s : State} {w : Work} {rest : List Work} (h : s.isolationQueue = [])
    (hw : s.workQueue = w :: rest) : s.nextWork = some (w, { s with workQueue := rest }) := by
  simp only [State.nextWork, h, hw]

theorem nextWork_none {s : State} (h : s.isolationQueue = []) (hw : s.workQueue = []) : s.nextWork = none := by
  simp only [State.nextWork, h, hw]

theorem acts_take {s : State} (hc : s.current = none) : s.Acts s.take := by
  unfold State.take
  cases hi : s.isolationQueue with
  | cons w rest =>
    rw [nextWork_isolation hi]
    refine .begin (l := s.workQueue) hc ?_ (List.Sublist.refl _) (hi ▸ List.sublist_cons_self w rest)
      fun ⟨_, hone, _, hqueued, _⟩ => ⟨fun _ => ?_, fun _ => ?_⟩
    · rw [hi]; exact List.perm_middle.symm
    · exact hqueued w (hi ▸ List.mem_cons_self)
    · rw [hi, List.length_cons] at hone
      exact List.length_eq_zero_iff.mp (by omega)
  | nil =>
    cases hw : s.workQueue with
    | cons w rest =>
      rw [nextWork_work hi hw]
      refine .begin (m := s.isolationQueue) hc ?_ (hw ▸ List.sublist_cons_self w rest) (List.Sublist.refl _)
        fun ⟨_, _, hplaced, _⟩ => ⟨fun ho => ?_, fun _ => hi⟩
      · rw [hw]; exact List.Perm.refl _
      · exact absurd ho (hplaced w (hw ▸ List.mem_cons_self))
    | nil =>
      rw [nextWork_none hi hw]
      exact .refl s

theorem acts_takeWork (s : State) (checks : Bool) : s.Acts
    (let s := if s.current = none then s.take else s
     if checks then s.checkStart else s) := by
  have taken : s.Acts (if s.current = none then s.take else s) := .ite acts_take fun _ => .refl s
  exact .ite (fun _ => taken.trans (.checkStart _)) fun _ => taken

theorem acts_confirmInput (s : State) (input : Option Pair) : s.Acts { s with confirmInput := input } :=
  .run (.of_same (.path rfl id) rfl rfl rfl) id

theorem acts_losEnds (s : State) : s.Acts (if s.onLine then s.losEnds else s) := by
  refine .ite (fun hl => ?_) fun _ => .refl s
  cases hc : s.current with
  | none => simp [State.onLine, hc] at hl
  | some c => exact .rests .losEnds (losEnds_rests hc)

end Sys2Proof.Machine
end

section
/-! SUPPORT. What every command keeps: the dispatch, the resets and the millisecond; and the statements about every step
assembled from it. -/

namespace Sys2Proof.Machine

/-! ### The dispatch -/

/-- The command answers a next state, and every property is kept. -/
def State.Kept (s : State) (o : Host.Outcome State Fault Refusal) : Prop := ∃ t, o = .next t ∧ s.Acts t

theorem kept_live {s : State} {effect : State → State} (h : s.Acts (effect s)) : s.Kept (live s effect) :=
  ⟨_, rfl, .ite (fun _ => .refl s) fun _ => h⟩

/-- A command that first moves an input level. -/
theorem kept_live_after {s u : State} {effect : State → State} (hu : s.Acts u) (h : u.Acts (effect u)) :
    s.Kept (live u effect) := by
  obtain ⟨t, ht, hk⟩ := kept_live h
  exact ⟨t, ht, hu.trans hk⟩

theorem kept_serve {s : State} {ch : Channel} {r : Request} {carryOut : Handed → State → State}
    (hc : ∀ h, h.channel = ch → ∀ u : State, u.Acts (carryOut h u)) : s.Kept (serve s ch r carryOut) := by
  refine kept_live ?_
  split
  · exact .refl s
  next h hf =>
    have his : Handed.is ch r h = true := List.find?_some hf
    simp only [Handed.is, Bool.and_eq_true, decide_eq_true_eq] at his
    exact (State.Acts.taken s ch r).trans (hc h his.1 _)

/-- A claim request, whose rule leaves the record to nobody, to the caller or to its owner. -/
theorem kept_serve_claim {s : State} {ch : Channel} {r : Request} {openToObserve : Bool}
    {rule : Handed → State → Claim → ClaimResult} (hr : ∀ h u c, (rule h u c).staysWith ch c) :
    s.Kept (serve s ch r fun h s => s.claimRequest h openToObserve (rule h s)) :=
  kept_serve fun h hch u => acts_claimRequest h openToObserve fun c => by rw [hch]; exact hr h u c

section Commands

variable (s : State) (ch : Channel)

theorem kept_presenceLoss (before : Nat) : s.Kept (execPresenceLoss ch before s) := by
  unfold execPresenceLoss
  exact kept_live_after (.client rfl id id) (.ite (fun _ => .refl _) fun _ => acts_presenceLost _ ch before)

theorem kept_presenceReturn : s.Kept (execPresenceReturn ch s) := by
  unfold execPresenceReturn
  exact kept_live_after (.client rfl id id) (.ite (fun _ => acts_presenceReturned _ ch) fun _ => .refl _)

theorem kept_functionWord (w : Word) : s.Kept (execFunctionWord ch w s) := by
  unfold execFunctionWord
  exact kept_live (.ite (fun _ => .refl s) fun _ => acts_functionTaken s ch w)

theorem kept_parameterWord (w : Word) : s.Kept (execParameterWord ch w s) := by
  unfold execParameterWord
  refine kept_live ?_
  split
  · exact acts_parameterTaken ..
  · exact acts_strayOffered ..

theorem kept_strayWord (w : Word) : s.Kept (execStrayWord ch w s) := by
  unfold execStrayWord
  exact kept_live (acts_strayOffered s ch)

theorem kept_shortParameters : s.Kept (execShortParameters ch s) := by
  unfold execShortParameters
  exact kept_live (.ite (fun _ => acts_setCcu ..) fun _ => .refl s)

theorem kept_answerTaken : s.Kept (execAnswerTaken ch s) := by
  unfold execAnswerTaken
  refine kept_live ?_
  split
  · exact .refl s
  · exact acts_answerArrives ..

theorem kept_replyWordRead : s.Kept (execReplyWordRead ch s) := by
  unfold execReplyWordRead
  refine kept_live ?_
  dsimp only
  split
  case h_1 => exact acts_setCcu ..
  case h_2 => exact acts_setCcu ..
  all_goals exact .refl s

theorem kept_replyAbandoned : s.Kept (execReplyAbandoned ch s) := by
  unfold execReplyAbandoned
  refine kept_live ?_
  dsimp only
  split
  case h_1 => exact acts_setCcu ..
  case h_2 => exact acts_setCcu ..
  all_goals exact .refl s

theorem kept_claim : s.Kept (execClaim ch s) := kept_serve_claim fun _ _ _ => claimRule_staysWith ..

theorem kept_claimIfClean : s.Kept (execClaimIfClean ch s) := kept_serve_claim fun _ _ _ => claimIfCleanRule_staysWith ..

theorem kept_check : s.Kept (execCheck ch s) := kept_serve_claim fun _ _ _ => checkRule_staysWith ..

theorem kept_takeover : s.Kept (execTakeover ch s) := kept_serve_claim fun _ _ _ => takeoverRule_staysWith ..

theorem kept_release : s.Kept (execRelease ch s) := kept_serve_claim fun _ _ _ => releaseRule_staysWith ..

theorem kept_writeLineSetup : s.Kept (execWriteLineSetup ch s) := 
  kept_serve fun h _ u => acts_writeLineSetup u h

theorem kept_writeHousing : s.Kept (execWriteHousing ch s) := 
  kept_serve fun h _ u => acts_writeHousing u h

theorem kept_writeTemplate : s.Kept (execWriteTemplate ch s) := 
  kept_serve fun h _ u => acts_writeTemplate u h

theorem kept_writeWatchPoint : s.Kept (execWriteWatchPoint ch s) := 
  kept_serve fun h _ u => acts_writeWatchPoint u h

theorem kept_enableWatchPoints : s.Kept (execEnableWatchPoints ch s) := 
  kept_serve fun h _ u => acts_enableWatchPoints u h

theorem kept_disableWatchPoints : s.Kept (execDisableWatchPoints ch s) := 
  kept_serve fun h _ u => acts_disableWatchPoints u h

theorem kept_writeBaseline : s.Kept (execWriteBaseline ch s) := 
  kept_serve fun h _ u => acts_writeBaseline u h

theorem kept_writePairPolicy : s.Kept (execWritePairPolicy ch s) := 
  kept_serve fun h _ u => acts_writePairPolicy u h

theorem kept_setQuarantine : s.Kept (execSetQuarantine ch s) := 
  kept_serve fun h _ u => acts_setQuarantine u h

theorem kept_clearQuarantine : s.Kept (execClearQuarantine ch s) := 
  kept_serve fun h _ u => acts_clearQuarantine u h

theorem kept_bindQueue : s.Kept (execBindQueue ch s) := 
  kept_serve fun h _ u => acts_bindQueue u h

theorem kept_startSweep : s.Kept (execStartSweep ch s) := 
  kept_serve fun h _ u => acts_startSweep u h

theorem kept_sendCommand : s.Kept (execSendCommand ch s) := 
  kept_serve fun h _ u => acts_sendCommand u h

theorem kept_cancelWork : s.Kept (execCancelWork ch s) := 
  kept_serve fun h _ u => acts_cancelWork u h

theorem kept_resetLine : s.Kept (execResetLine ch s) := 
  kept_serve fun h _ u => acts_resetLine u h

theorem kept_readQueue : s.Kept (execReadQueue ch s) := 
  kept_serve fun h _ u => acts_readQueue u h

theorem kept_readWatchPoints : s.Kept (execReadWatchPoints ch s) := 
  kept_serve fun h _ u => acts_readWatchPoints u h

theorem kept_readHousing : s.Kept (execReadHousing ch s) := 
  kept_serve fun h _ u => acts_readHousing u h

theorem kept_readVerdict : s.Kept (execReadVerdict ch s) := 
  kept_serve fun h _ u => acts_readVerdict u h

theorem kept_readClaims : s.Kept (execReadClaims ch s) := kept_serve fun h _ u => .answer u h _

theorem kept_readLineState : s.Kept (execReadLineState ch s) := kept_serve fun h _ u => .answer u h _

theorem kept_readTime : s.Kept (execReadTime ch s) := kept_serve fun h _ u => .answer u h _

theorem kept_readAlarms : s.Kept (execReadAlarms ch s) := kept_serve fun h _ u => .answer u h _

theorem kept_ackAlarm : s.Kept (execAckAlarm ch s) := kept_serve fun h _ u => acts_ackAlarm u h

theorem kept_clearPort : s.Kept (execClearPort ch s) := by
  unfold execClearPort
  exact kept_live (.ite (fun _ => .refl s) fun _ => acts_portCleared s ch)

theorem kept_takeWork (checks : Bool) : s.Kept (execTakeWork checks s) := kept_live (acts_takeWork s checks)

theorem kept_selectorConfirm (code : Pair) : s.Kept (execSelectorConfirm code s) := by
  unfold execSelectorConfirm
  split
  · exact ⟨_, rfl, acts_confirmInput s _⟩
  · exact ⟨_, rfl, .confirmShows s _⟩

theorem kept_selectorSettleExpiry : s.Kept (execSelectorSettleExpiry s) := kept_live (.settleEnds s)

theorem kept_lossOfPosition (input : Option Pair) : s.Kept (execLossOfPosition input s) := by
  unfold execLossOfPosition
  split
  · exact ⟨_, rfl, acts_confirmInput s _⟩
  · exact ⟨_, rfl, .confirmShows s _⟩

theorem kept_receiverLos (asserted : Bool) : s.Kept (execReceiverLos asserted s) := by
  unfold execReceiverLos
  refine kept_live_after (.client rfl id id) ?_
  cases asserted
  · exact .refl _
  · exact acts_losEnds _

theorem kept_settlePeriodEnd : s.Kept (execSettlePeriodEnd s) := kept_live (acts_settlePeriodEnd s)

theorem kept_integratePeriodEnd : s.Kept (execIntegratePeriodEnd s) := kept_live (acts_integratePeriodEnd s)

theorem kept_integrateComplete : s.Kept (execIntegrateComplete s) := kept_live (acts_integrateComplete s)

theorem kept_watchPointAction : s.Kept (execWatchPointAction s) := kept_live (acts_watchPointAction s)

theorem kept_streakUpdate : s.Kept (execStreakUpdate s) := kept_live (acts_streakUpdate s)

theorem kept_verdictClearing : s.Kept (execVerdictClearing s) := kept_live (acts_verdictClearing s)

theorem kept_verdictReplacement : s.Kept (execVerdictReplacement s) := kept_live (acts_verdictReplacement s)

theorem kept_verdictRaise : s.Kept (execVerdictRaise s) := kept_live (acts_verdictRaise s)

theorem kept_isolationStart : s.Kept (execIsolationStart s) := kept_live (acts_isolationStart s)

theorem kept_postSwapEscalation : s.Kept (execPostSwapEscalation s) := kept_live (acts_postSwapEscalation s)

theorem kept_baselineVerdictClearing : s.Kept (execBaselineVerdictClearing s) := kept_live (acts_baselineVerdictClearing s)

theorem kept_evaluationDone : s.Kept (execEvaluationDone s) := kept_live (acts_evaluationDone s)

theorem kept_frameBitPeriodEnd : s.Kept (execFrameBitPeriodEnd s) := kept_live (acts_frameBitPeriodEnd s)

theorem kept_frameEnd : s.Kept (execFrameEnd s) := kept_live (acts_frameEnd s)

theorem kept_roundTripEnd : s.Kept (execRoundTripEnd s) := kept_live (acts_roundTripEnd s)

theorem kept_intervalClassified : s.Kept (execIntervalClassified s) := kept_live (acts_intervalClassified s)

theorem kept_busyTimeout : s.Kept (execBusyTimeout s) := kept_live (acts_busyTimeout s)

theorem kept_sampleStrobe (sample : Sample) : s.Kept (execSampleStrobe sample s) := by
  unfold execSampleStrobe
  refine kept_live ?_
  split
  next c t _ ht => exact .ite (fun _ => .refl s) fun _ => acts_strobe ht c sample
  next => exact .refl s

end Commands

/-- Every command but the resets and the millisecond. -/
theorem exec_kept (s : State) : ∀ c : Instr, c ≠ .epochTick → c ≠ .resetAssert → (∀ straps, c ≠ .resetRelease straps) →
    s.Kept (exec c s)
  | .resetAssert, _, h, _ => absurd rfl h
  | .resetRelease straps, _, _, h => absurd rfl (h straps)
  | .epochTick, h, _, _ => absurd rfl h
  | .presenceLoss ch before, _, _, _ => kept_presenceLoss s ch before
  | .presenceReturn ch, _, _, _ => kept_presenceReturn s ch
  | .functionWord ch w, _, _, _ => kept_functionWord s ch w
  | .parameterWord ch w, _, _, _ => kept_parameterWord s ch w
  | .strayWord ch w, _, _, _ => kept_strayWord s ch w
  | .shortParameters ch, _, _, _ => kept_shortParameters s ch
  | .answerTaken ch, _, _, _ => kept_answerTaken s ch
  | .replyWordRead ch, _, _, _ => kept_replyWordRead s ch
  | .replyAbandoned ch, _, _, _ => kept_replyAbandoned s ch
  | .claim ch, _, _, _ => kept_claim s ch
  | .claimIfClean ch, _, _, _ => kept_claimIfClean s ch
  | .check ch, _, _, _ => kept_check s ch
  | .takeover ch, _, _, _ => kept_takeover s ch
  | .release ch, _, _, _ => kept_release s ch
  | .writeLineSetup ch, _, _, _ => kept_writeLineSetup s ch
  | .writeHousing ch, _, _, _ => kept_writeHousing s ch
  | .writeTemplate ch, _, _, _ => kept_writeTemplate s ch
  | .writeWatchPoint ch, _, _, _ => kept_writeWatchPoint s ch
  | .enableWatchPoints ch, _, _, _ => kept_enableWatchPoints s ch
  | .disableWatchPoints ch, _, _, _ => kept_disableWatchPoints s ch
  | .writeBaseline ch, _, _, _ => kept_writeBaseline s ch
  | .writePairPolicy ch, _, _, _ => kept_writePairPolicy s ch
  | .setQuarantine ch, _, _, _ => kept_setQuarantine s ch
  | .clearQuarantine ch, _, _, _ => kept_clearQuarantine s ch
  | .bindQueue ch, _, _, _ => kept_bindQueue s ch
  | .startSweep ch, _, _, _ => kept_startSweep s ch
  | .sendCommand ch, _, _, _ => kept_sendCommand s ch
  | .cancelWork ch, _, _, _ => kept_cancelWork s ch
  | .resetLine ch, _, _, _ => kept_resetLine s ch
  | .readQueue ch, _, _, _ => kept_readQueue s ch
  | .readWatchPoints ch, _, _, _ => kept_readWatchPoints s ch
  | .readHousing ch, _, _, _ => kept_readHousing s ch
  | .readVerdict ch, _, _, _ => kept_readVerdict s ch
  | .readClaims ch, _, _, _ => kept_readClaims s ch
  | .readLineState ch, _, _, _ => kept_readLineState s ch
  | .readTime ch, _, _, _ => kept_readTime s ch
  | .readAlarms ch, _, _, _ => kept_readAlarms s ch
  | .ackAlarm ch, _, _, _ => kept_ackAlarm s ch
  | .clearPort ch, _, _, _ => kept_clearPort s ch
  | .takeWork checks, _, _, _ => kept_takeWork s checks
  | .selectorConfirm code, _, _, _ => kept_selectorConfirm s code
  | .selectorSettleExpiry, _, _, _ => kept_selectorSettleExpiry s
  | .lossOfPosition input, _, _, _ => kept_lossOfPosition s input
  | .receiverLos asserted, _, _, _ => kept_receiverLos s asserted
  | .settlePeriodEnd, _, _, _ => kept_settlePeriodEnd s
  | .integratePeriodEnd, _, _, _ => kept_integratePeriodEnd s
  | .integrateComplete, _, _, _ => kept_integrateComplete s
  | .watchPointAction, _, _, _ => kept_watchPointAction s
  | .streakUpdate, _, _, _ => kept_streakUpdate s
  | .verdictClearing, _, _, _ => kept_verdictClearing s
  | .verdictReplacement, _, _, _ => kept_verdictReplacement s
  | .verdictRaise, _, _, _ => kept_verdictRaise s
  | .isolationStart, _, _, _ => kept_isolationStart s
  | .postSwapEscalation, _, _, _ => kept_postSwapEscalation s
  | .baselineVerdictClearing, _, _, _ => kept_baselineVerdictClearing s
  | .evaluationDone, _, _, _ => kept_evaluationDone s
  | .frameBitPeriodEnd, _, _, _ => kept_frameBitPeriodEnd s
  | .frameEnd, _, _, _ => kept_frameEnd s
  | .roundTripEnd, _, _, _ => kept_roundTripEnd s
  | .intervalClassified, _, _, _ => kept_intervalClassified s
  | .busyTimeout, _, _, _ => kept_busyTimeout s
  | .sampleStrobe sample, _, _, _ => kept_sampleStrobe s sample

end Sys2Proof.Machine
end

section
/-! SUPPORT. The state at reset, the millisecond, and the statements about every step assembled from what each command
keeps. -/

namespace Sys2Proof.Machine

/-! ### The state at reset -/

section Initial

variable (asserted : Bool) (straps : Straps) (presence : PerChannel Bool) (los : Bool) (confirm : Option Pair)
  (pending : List Instr)

theorem initial_memoriesCanonical : (State.initial asserted straps presence los confirm pending).memoriesCanonical :=
  ⟨Memory.wf_nil _, Memory.wf_nil _, Memory.wf_nil _, Memory.wf_nil _, Memory.wf_nil _, Memory.wf_nil _,
    Memory.wf_nil _⟩

theorem initial_reportsBounded : (State.initial asserted straps presence los confirm pending).reportsBounded := by
  intro q
  cases q <;> exact Nat.zero_le _

theorem initial_workBounded : (State.initial asserted straps presence los confirm pending).workBounded :=
  ⟨Nat.zero_le _, List.nodup_nil, List.nodup_nil⟩

theorem initial_ownersPresent : (State.initial asserted straps presence los confirm pending).ownersPresent := by
  intro r ch h
  cases r <;> cases h

theorem initial_lineConsistent : (State.initial asserted straps presence los confirm pending).lineConsistent :=
  lineConsistent_of_none rfl rfl rfl rfl rfl rfl

theorem initial_isolationFollows : (State.initial asserted straps presence los confirm pending).isolationFollows :=
  ⟨initial_lineConsistent .., Nat.zero_le _, nofun, nofun, nofun, nofun⟩

theorem initial_tablesAtReset : (State.initial asserted straps presence los confirm pending).tablesAtReset := by
  refine ⟨rfl, fun _ _ _ => rfl, rfl, rfl, rfl, rfl, fun p h hh => ?_, fun _ => rfl⟩
  have key : wpKey p h % 193 = h := by unfold wpKey; omega
  change wpDefault (wpKey p h) = _
  unfold wpDefault
  rw [key]

end Initial

/-- With the tables at their reset contents, no work and no leads, every centre lag is legal. -/
theorem centresLegal_of_reset {s : State} (ht : s.tablesAtReset) (hw : s.workLegal) : s.centresLegal := by
  obtain ⟨hsetup, hhousing, t0, t1, t2, t3, hwp, hpolicy⟩ := ht
  have hparked (h : Nat) (h1 : 1 ≤ h) (h2 : h ≤ 192) : s.housing h = housingDefault h := hhousing h h1 h2
  have htables : s.tablesLegal := by
    refine ⟨by rw [hsetup, LineSetup.legal]; decide, fun t htlt => ?_, fun p => by rw [hpolicy, Policy.legal]; decide⟩
    obtain rfl | rfl | rfl | rfl : t = 0 ∨ t = 1 ∨ t = 2 ∨ t = 3 := by omega
    · rw [t0, Template.legal]; decide
    · rw [t1, Template.legal]; decide
    · rw [t2, Template.legal]; decide
    · rw [t3, Template.legal]; decide
  have hhousings : s.housingsLegal := by
    refine ⟨fun h h1 h2 hp => ?_, fun h h1 h2 _ => hparked h h1 h2, fun h i h1 hi h2 hp _ => ?_⟩
    · rw [hparked h h1 h2] at hp; cases hp
    · rw [hparked h h1 (by omega)] at hp; cases hp
  refine ⟨htables, hhousings, hw, fun p h hh => centreLegal_of_nominal htables hhousings hh ?_ ?_⟩
  · rw [hwp p h hh]; exact Nat.one_lt_ofNat
  · rw [hwp p h hh, State.nominalLag, hsetup]
    dsimp only
    split
    · rfl
    · rw [hparked h (by omega) hh]; rfl

theorem initial_centresLegal (asserted : Bool) (straps : Straps) (presence : PerChannel Bool) (los : Bool)
    (confirm : Option Pair) (pending : List Instr) :
    (State.initial asserted straps presence los confirm pending).centresLegal :=
  centresLegal_of_reset (initial_tablesAtReset ..) ⟨nofun, nofun, nofun, nofun, nofun, fun _ => ⟨nofun, nofun⟩⟩

/-- A reset of the part keeps every property, for they all hold at the reset values. -/
theorem keeps_initial (s : State) (asserted : Bool) (straps : Straps) (presence : PerChannel Bool) (los : Bool)
    (confirm : Option Pair) : s.Keeps (.initial asserted straps presence los confirm s.pending) where
  pending := rfl
  canonical _ := initial_memoriesCanonical ..
  reports _ := initial_reportsBounded _ _ _ _ _ _
  work _ := initial_workBounded ..
  owners _ := initial_ownersPresent _ _ _ _ _ _
  line _ := initial_lineConsistent ..
  isolation _ := initial_isolationFollows ..
  centres _ := initial_centresLegal ..

/-! ### The millisecond -/

/-- A timer that has not expired has not passed its limit one millisecond later. -/
theorem limit_after_tick {now start : Time} {limit : Nat} (h : (now - start).toNat < limit) :
    (now + 1 - start).toNat ≤ limit := by
  bv_omega

/-- After the expiry is taken, the next millisecond ends within the settle limit (R8). -/
theorem tick_lineConsistent {s : State} (h : s.lineConsistent) (hs : s.settleExpired = false) :
    ({ s with epoch := s.epoch + 1 } : State).lineConsistent := by
  obtain ⟨hrest, hphase, hchip, hsettle, -, heval, hcells⟩ := h
  refine ⟨hrest, hphase, hchip, hsettle, fun t ht => limit_after_tick ?_, heval, hcells⟩
  change s.settleTimer = some t at ht
  simpa [State.settleExpired, ht] using hs

/-- What stands after the settle timer's expiry has been taken has not expired. -/
theorem settleEnds_notExpired {s : State} (h : s.lineConsistent) : s.settleEnds.settleExpired = false := by
  have expired_of_none {u : State} (hu : u.settleTimer = none) : u.settleExpired = false := by
    simp [State.settleExpired, hu]
  by_cases hs : (s.inState .select && s.settleExpired) = true
  · have hsel := (Bool.and_eq_true_iff.mp hs).1
    rw [State.settleEnds, if_pos hs]
    cases hc : s.current with
    | none => rw [inState_of_none hc] at hsel; cases hsel
    | some c =>
      obtain ⟨-, -, -, htimer, -⟩ := selectorFaultEnds_rests hc
      exact expired_of_none htimer
  · rw [State.settleEnds, if_neg hs]
    cases hsel : s.inState .select with
    | true => simpa [hsel] using hs
    | false =>
      obtain ⟨-, -, -, hsettle, -⟩ := h
      rw [hsel] at hsettle
      exact expired_of_none (by simpa using hsettle)

theorem keeps_epochTick (s : State) : s.Keeps { s.settleEnds with epoch := s.epoch + 1 } := by
  have hk : s.Acts s.settleEnds := .settleEnds s
  have hepoch : s.settleEnds.epoch = s.epoch := hk.epoch
  have hline (h : s.lineConsistent) : ({ s.settleEnds with epoch := s.epoch + 1 } : State).lineConsistent :=
    hepoch ▸ tick_lineConsistent (hk.line h) (settleEnds_notExpired h)
  refine ⟨hk.pending, hk.canonical, hk.reports, hk.work, hk.owners, hline, fun h => ?_, hk.centres⟩
  obtain ⟨-, rest⟩ := hk.isolation h
  exact ⟨hline h.1, rest⟩

/-! ### Every command, every step -/

theorem State.Keeps.ite {s t u : State} {b : Prop} [Decidable b] (h : s.Keeps t) (k : s.Keeps u) :
    s.Keeps (if b then t else u) := by
  split
  · exact h
  · exact k

theorem exec_keeps (c : Instr) (s : State) : ∃ t, exec c s = .next t ∧ s.Keeps t := by
  by_cases h1 : c = .epochTick
  · subst h1
    exact ⟨_, rfl, .ite (State.Acts.refl s).toKeeps (keeps_epochTick s)⟩
  by_cases h2 : c = .resetAssert
  · subst h2
    exact ⟨_, rfl, keeps_initial ..⟩
  by_cases h3 : ∃ straps, c = .resetRelease straps
  · obtain ⟨straps, rfl⟩ := h3
    exact ⟨_, rfl, .ite (keeps_initial ..) (State.Acts.refl s).toKeeps⟩
  · obtain ⟨t, ht, hk⟩ := exec_kept s c h1 h2 (not_exists.mp h3)
    exact ⟨t, ht, hk.toKeeps⟩

/-- What a step keeps: the commands that wait play no part in the properties. -/
theorem step_keeps {s t : State} (h : step s = .next t) : ∃ l, ({ s with pending := l } : State).Keeps t := by
  unfold step at h
  split at h
  · cases h
    exact ⟨s.pending, (State.Acts.refl s).toKeeps⟩
  next c rest _ =>
    obtain ⟨u, hu, hk⟩ := exec_keeps c { s with pending := rest }
    cases hu.symm.trans h
    exact ⟨rest, hk⟩

/-- Settles O56: every part of every command keeps the canonical form (`State.Keeps`). -/
theorem everyStepKeepsMemoriesCanonical : Obligations.EveryStepKeepsMemoriesCanonical := by
  intro s t h hs
  obtain ⟨_, hk⟩ := step_keeps hs
  exact hk.canonical h

/-- Settles O57: every part of every command keeps the bounds of the queues, the tags and the owners (`State.Keeps`). -/
theorem everyStepKeepsQueuesAndOwners : Obligations.EveryStepKeepsQueuesAndOwners := by
  refine ⟨fun s t h hs => ?_, fun s t h hs => ?_⟩
  · obtain ⟨_, hk⟩ := step_keeps hs
    exact ⟨hk.reports h.1, hk.work h.2⟩
  · obtain ⟨_, hk⟩ := step_keeps hs
    exact hk.owners h

/-- Settles O58: every part of every command keeps the line side consistent (`State.Keeps`). -/
theorem everyStepKeepsLineConsistent : Obligations.EveryStepKeepsLineConsistent := by
  intro s t h hs
  obtain ⟨_, hk⟩ := step_keeps hs
  exact hk.line h

/-- Settles O59: every part of every command keeps automatic work answering its verdict (`State.Keeps`). -/
theorem everyStepKeepsIsolationFollowing : Obligations.EveryStepKeepsIsolationFollowing := by
  intro s t h hs
  obtain ⟨_, hk⟩ := step_keeps hs
  exact hk.isolation h

/-- Settles O60: every part of every command keeps the tables and the centre lags legal (`State.Keeps`). -/
theorem everyStepKeepsCentresLegal : Obligations.EveryStepKeepsCentresLegal := by
  intro s t h hs
  obtain ⟨_, hk⟩ := step_keeps hs
  exact hk.centres h

/-- Settles O2: every command answers a next state and leaves the waiting commands (`State.Keeps`). -/
theorem everyCommandAnswersNext : Obligations.EveryCommandAnswersNext := by
  intro c s
  obtain ⟨t, ht, hk⟩ := exec_keeps c s
  exact ⟨t, ht, hk.pending⟩

end Sys2Proof.Machine
end

section
/-! SUPPORT. The step, the reset values, the millisecond and the posting of a record: the statements about them. -/

namespace Sys2Proof.Machine

/-- Settles O1: the step is the dispatch on the command in front. -/
theorem stepRunsFrontCommand : Obligations.StepRunsFrontCommand := fun _ => ⟨fun _ _ => rfl, rfl⟩

/-! ### Reset -/

section Initial

variable (asserted : Bool) (straps : Straps) (presence : PerChannel Bool) (los : Bool) (confirm : Option Pair)
  (pending : List Instr)

theorem initial_lineAtReset : (State.initial asserted straps presence los confirm pending).lineAtReset :=
  ⟨rfl, rfl, rfl, rfl, rfl, rfl, rfl, rfl, rfl, rfl, fun _ _ => rfl, rfl, rfl, rfl, rfl, rfl, rfl, rfl, rfl, rfl⟩

theorem initial_recordsAtReset : (State.initial asserted straps presence los confirm pending).recordsAtReset :=
  ⟨fun _ => rfl, rfl, rfl, rfl, rfl, rfl, fun ch => by cases ch <;> rfl, rfl, rfl, rfl⟩

theorem initial_atReset : (State.initial asserted straps presence los confirm pending).atReset :=
  ⟨rfl, initial_tablesAtReset .., initial_lineAtReset .., initial_recordsAtReset ..⟩

theorem initial_ccu (ch : Channel) : (State.initial asserted straps presence los confirm pending).ccu ch =
    .reset (PerChannel.get presence ch) := by
  cases ch <;> rfl

theorem initial_unitAtRelease (ch : Channel) :
    (State.initial asserted straps presence los confirm pending).unitAtRelease ch := by
  rw [State.unitAtRelease, initial_ccu]
  exact ⟨rfl, rfl, rfl, rfl, rfl⟩

end Initial

/-- Settles O3: the state at reset is read off the reset values. -/
theorem resetStateHoldsResetValues : Obligations.ResetStateHoldsResetValues :=
  ⟨⟨rfl, initial_atReset .., initial_unitAtRelease _ _ _ _ _ _, rfl, rfl, rfl, rfl⟩,
    initial_memoriesCanonical .., initial_reportsBounded _ _ _ _ _ _, initial_workBounded ..,
    initial_ownersPresent _ _ _ _ _ _, initial_lineConsistent .., initial_isolationFollows ..,
    initial_centresLegal ..⟩

/-- Settles O4: both commands leave the part at its reset values, for the straps and the inputs as they are. -/
theorem resetReturnsEveryBlock : Obligations.ResetReturnsEveryBlock := by
  refine ⟨fun s => ?assert, fun s straps hs => ?release⟩
  case assert =>
    refine ⟨_, rfl, rfl, initial_atReset .., rfl, rfl, rfl, fun ch => ?_, rfl, rfl, rfl⟩
    rw [initial_ccu]
    exact ⟨rfl, rfl, rfl, rfl⟩
  case release =>
    refine ⟨_, congrArg Host.Outcome.next (if_pos hs), rfl, initial_atReset .., rfl,
      initial_unitAtRelease _ _ _ _ _ _, rfl, rfl, rfl, rfl⟩

/-! ### The millisecond -/

theorem exec_epochTick {s : State} (h : s.resetAsserted = false) :
    exec .epochTick s = .next { s.settleEnds with epoch := s.epoch + 1 } :=
  show execEpochTick s = _ from live_next h _

/-- Settles O5: the millisecond first takes an expiry that stands, and every other command keeps the count
(`State.Acts`). -/
theorem epochCounterRule : Obligations.EpochCounterRule := by
  refine ⟨fun s hs => ?tick, fun s hs => ?held, fun s t ht => ?reset, fun c s t ht h1 h2 h3 => ?other⟩
  case tick =>
    refine ⟨_, exec_epochTick hs, rfl, fun hnot => ?_, fun timer hsel htimer hdue => ?_⟩
    · rw [State.settleEnds_notDue hnot]
    · rw [State.settleEnds_due hsel htimer hdue]
      rfl
  case held => exact show execEpochTick s = _ from live_held hs _
  case reset =>
    cases ht
    rfl
  case other =>
    obtain ⟨u, hu, hk⟩ := exec_kept s c h1 h2 h3
    cases hu.symm.trans ht
    exact hk.epoch

/-! ### The posting of a record -/

/-- The line of a channel is asserted when some queue drives it (R164). -/
theorem attention_iff {s : State} {ch : Channel} :
    s.attention ch = true ↔ ∃ q, (PerQueue.get s.queues q).drives ch = true := by
  simp only [State.attention, Bool.or_eq_true]
  constructor
  · rintro (((h | h) | h) | h)
    · exact ⟨.rq0, h⟩
    · exact ⟨.rq1, h⟩
    · exact ⟨.rq2, h⟩
    · exact ⟨.rq3, h⟩
  · rintro ⟨q, h⟩
    cases q with
    | rq0 => exact .inl (.inl (.inl h))
    | rq1 => exact .inl (.inl (.inr h))
    | rq2 => exact .inl (.inr h)
    | rq3 => exact .inr h

/-- A queue that has taken a record drives the line of the channel it is bound to (R160, R164). -/
theorem attention_post {s : State} {q : RQ} {b : RecordBody} {ch : Channel}
    (hroom : (PerQueue.get s.queues q).records.length < 64) (hb : (PerQueue.get s.queues q).binding = some ch) :
    (s.post q b).attention ch = true := by
  refine attention_iff.mpr ⟨q, ?_⟩
  rw [State.post, PerQueue.get_set_same, accept_room _ hroom]
  simp [ReportQueue.drives, hb]

/-- Settles O25, by whether the queue has room. -/
theorem postedRecordJoinsOrOverflows : Obligations.PostedRecordJoinsOrOverflows := by
  intro s q b old
  refine ⟨fun hroom => ⟨?_, fun ch hb => attention_post hroom hb⟩, fun hfull => ?_⟩
  · rw [State.post, accept_room _ hroom]
  · rw [State.post, accept_full _ (Nat.not_lt.mpr hfull)]

end Sys2Proof.Machine
end

section
/-! SUPPORT. The client channels: what each word does to its unit, and the statements about the channels' commands. -/

namespace Sys2Proof.Machine

/-! ### Units -/

theorem ccu_setCcu_same (s : State) (ch : Channel) (u : ChannelUnit) : (s.setCcu ch u).ccu ch = u :=
  PerChannel.get_set_same ..

theorem ccu_setCcu_other (s : State) {ch d : Channel} (u : ChannelUnit) (h : d ≠ ch) : (s.setCcu ch u).ccu d = s.ccu d :=
  PerChannel.get_set_other _ _ h

/-- Of two writes of a unit the later one stands. -/
theorem setCcu_setCcu (s : State) (ch : Channel) (u v : ChannelUnit) :
    (s.setCcu ch u).setCcu ch v = s.setCcu ch v := by
  simp only [State.setCcu, PerChannel.set_set]

theorem live_same {s : State} {f : State → State} (h : f s = s) : live s f = .next s := by
  rw [live, h, ite_self]

/-- On a connected channel a transaction is open in every phase but IDLE (R167). -/
theorem open_of_connected {p : ChannelPhase} (h : p ≠ .disconnected) : p.open = decide (p ≠ .idle) := by
  cases p with
  | disconnected => exact absurd rfl h
  | idle => rfl
  | parameters => rfl
  | awaiting => rfl
  | reply => rfl

section Unit

variable {s : State} {ch : Channel}

theorem ended_of_connected (h : (s.ccu ch).phase ≠ .disconnected) : (s.ccu ch).ended =
    { phase := .idle, collecting := none, params := [], reply := []
      discard := (s.ccu ch).discard || decide ((s.ccu ch).phase ≠ .idle), reading := false, handshake := .rest } := by
  rw [ChannelUnit.ended, open_of_connected h]

theorem ccu_endTransaction : (s.endTransaction ch).ccu ch = (s.ccu ch).ended := ccu_setCcu_same ..

theorem channels_endTransaction_set (u : ChannelUnit) :
    (s.endTransaction ch).setCcu ch u = (s.markStale ch).setCcu ch u := setCcu_setCcu ..

/-! ### The function word -/

variable {w : Word} {r : Request}

theorem exec_functionWord (h : s.resetAsserted = false) (hp : (s.ccu ch).phase ≠ .disconnected) (w : Word) :
    exec (.functionWord ch w) s = .next (s.functionTaken ch w) := by
  change execFunctionWord ch w s = _
  rw [execFunctionWord, live_next h, if_neg hp]

theorem functionTaken_request (hr : decodeRequest (functionCode w) = some r) (hne : r ≠ .clearPort) :
    s.functionTaken ch w = (s.endTransaction ch).openRequest ch r (functionSelector w) := by
  unfold State.functionTaken
  split
  next e => exact absurd (Option.some.inj (hr.symm.trans e)) hne
  next e => cases hr.symm.trans e; rfl
  next e => cases hr.symm.trans e

theorem functionTaken_clearPort (hr : decodeRequest (functionCode w) = some .clearPort) :
    s.functionTaken ch w = s.portCleared ch := by
  simp only [State.functionTaken, hr]

theorem functionTaken_unknown (hr : decodeRequest (functionCode w) = none) : s.functionTaken ch w =
    (s.markStale ch).setCcu ch ((s.ccu ch).ended.build (.refusal .unknownRequest)) := by
  simp only [State.functionTaken, hr]
  rw [channels_endTransaction_set, ccu_endTransaction]

theorem portCleared_eq (hp : (s.ccu ch).phase ≠ .disconnected) : s.portCleared ch = (s.markStale ch).setCcu ch
    { phase := .reply, collecting := none, params := [], reply := [0, 0], discard := false, reading := false
      handshake := .rest } := by
  rw [State.portCleared, channels_endTransaction_set, ccu_endTransaction, ended_of_connected hp]
  rfl

end Unit

/-- Settles O7, by what the code of the function word names. -/
theorem functionWordOpensTransaction : Obligations.FunctionWordOpensTransaction := by
  intro s ch w hs hp marker stale ended
  have hended := ended_of_connected hp
  refine ⟨fun r hr hne hcount => ?handedOver, fun r hr hcount => ?collecting, fun hr => ?unknown⟩
  case handedOver =>
    rw [exec_functionWord hs hp, functionTaken_request hr hne, State.openRequest, if_pos hcount, State.handOver,
      channels_endTransaction_set, ccu_endTransaction, hended]
    rfl
  case collecting =>
    have hne : r ≠ .clearPort := by rintro rfl; exact hcount rfl
    rw [exec_functionWord hs hp, functionTaken_request hr hne, State.openRequest, if_neg hcount,
      channels_endTransaction_set, ccu_endTransaction, hended]
    rfl
  case unknown =>
    rw [exec_functionWord hs hp, functionTaken_unknown hr, hended]
    rfl

/-! ### Parameter words -/

theorem strayOffered_of_answering {s : State} {ch : Channel}
    (hp : (s.ccu ch).phase = .idle ∨ (s.ccu ch).phase = .awaiting ∨ (s.ccu ch).phase = .reply) :
    s.strayOffered ch = s.setCcu ch (s.ccu ch).answersInactive := by
  obtain e | e | e := hp <;> simp only [State.strayOffered, e]

theorem strayOffered_of_silent {s : State} {ch : Channel}
    (hp : (s.ccu ch).phase = .parameters ∨ (s.ccu ch).phase = .disconnected) : s.strayOffered ch = s := by
  obtain e | e := hp <;> simp only [State.strayOffered, e]

/-- A word offered with function deasserted: collected in PARAMETERS, a stray one elsewhere (R169). -/
def State.wordOffered (s : State) (ch : Channel) (w : Word) : State :=
  match (s.ccu ch).phase, (s.ccu ch).collecting with
  | .parameters, some o => s.parameterTaken ch o w
  | _, _ => s.strayOffered ch

theorem execParameterWord_eq (ch : Channel) (w : Word) (s : State) :
    execParameterWord ch w s = live s fun s => s.wordOffered ch w := rfl

theorem wordOffered_collecting {s : State} {ch : Channel} {o : OpenRequest} (hp : (s.ccu ch).phase = .parameters)
    (ho : (s.ccu ch).collecting = some o) (w : Word) : s.wordOffered ch w = s.parameterTaken ch o w := by
  simp only [State.wordOffered, hp, ho]

theorem wordOffered_stray {s : State} {ch : Channel} (hp : (s.ccu ch).phase ≠ .parameters) (w : Word) :
    s.wordOffered ch w = s.strayOffered ch := by
  unfold State.wordOffered
  split
  next e _ => exact absurd e hp
  next => rfl

/-- Outside PARAMETERS a parameter word is a stray word. -/
theorem exec_stray {s : State} {ch : Channel} {w : Word} {c : Instr} (hc : c = .strayWord ch w ∨ c = .parameterWord ch w)
    (hp : (s.ccu ch).phase ≠ .parameters) : exec c s = live s fun s => s.strayOffered ch := by
  obtain rfl | rfl := hc
  · rfl
  · change execParameterWord ch w s = _
    rw [execParameterWord_eq, live, live, wordOffered_stray hp]

/-- Settles O8, by the phase in which the word comes. -/
theorem parameterWordsAreCollected : Obligations.ParameterWordsAreCollected := by
  refine ⟨fun s ch w o hs hp ho => ?collected, fun s ch hs hp => ?short, fun s ch w c hs hc hp => ?stray,
    fun s ch w c hc hp => ?disconnected, fun s ch w hp => ?strayInParameters⟩
  case collected =>
    have hexec : exec (.parameterWord ch w) s = .next (s.parameterTaken ch o w) := by
      change execParameterWord ch w s = _
      rw [execParameterWord_eq, live_next hs, wordOffered_collecting hp ho]
    have hlength : ((s.ccu ch).params ++ [w]).length = (s.ccu ch).params.length + 1 := List.length_append
    refine ⟨fun hmore => ?_, fun hlast => ?_⟩
    · rw [hexec, State.parameterTaken, if_pos (by omega)]
      rfl
    · rw [hexec, State.parameterTaken, if_neg (by omega)]
      rfl
  case short =>
    have hexec : exec (.shortParameters ch) s = .next (s.setCcu ch ((s.ccu ch).build (.refusal .shortParameters))) := by
      change execShortParameters ch s = _
      rw [execShortParameters, live_next hs, if_pos hp]
    refine ⟨_, hexec, ?_⟩
    rw [ccu_setCcu_same]
    exact ⟨rfl, rfl, rfl, rfl, rfl, rfl, fun d hd => ccu_setCcu_other s _ hd, rfl⟩
  case stray =>
    have hne : (s.ccu ch).phase ≠ .parameters := by obtain e | e | e := hp <;> rw [e] <;> decide
    rw [exec_stray hc hne, live_next hs, strayOffered_of_answering hp]
    rfl
  case disconnected =>
    rw [exec_stray hc (by rw [hp]; decide)]
    exact live_same (strayOffered_of_silent (.inr hp))
  case strayInParameters =>
    exact show execStrayWord ch w s = _ from live_same (strayOffered_of_silent (.inl hp))

/-! ### Answers and replies -/

/-- The answers left once the oldest one given to the channel has gone (R171). -/
def State.answerGone (s : State) (ch : Channel) : State :=
  { s with answers := s.answers.eraseP fun a => decide (a.channel = ch) }

theorem exec_answerTaken {s : State} {ch : Channel} {a : Answer} (hs : s.resetAsserted = false)
    (ha : s.answers.find? (fun a => decide (a.channel = ch)) = some a) : exec (.answerTaken ch) s =
    .next (if a.live && decide ((s.ccu ch).phase = .awaiting) then (s.answerGone ch).setCcu ch ((s.ccu ch).build a.reply)
      else s.answerGone ch) := by
  change execAnswerTaken ch s = _
  rw [execAnswerTaken, live_next hs, ha]
  rfl

/-- Settles O9, by whether the transaction that the answer is for is still open. -/
theorem answerBuildsReply : Obligations.AnswerBuildsReply := by
  intro s ch a hs ha
  refine ⟨fun hp hl => ?built, fun hnot => ?discarded⟩
  case built =>
    have hopen : (a.live && decide ((s.ccu ch).phase = .awaiting)) = true := by rw [hl, hp]; rfl
    rw [exec_answerTaken hs ha, if_pos hopen]
    refine ⟨_, rfl, ?_⟩
    rw [ccu_setCcu_same]
    refine ⟨rfl, rfl, rfl, fun hr => ?_, fun d hd => ccu_setCcu_other (s.answerGone ch) _ hd, rfl, rfl⟩
    exact if_pos hr
  case discarded =>
    have hclosed : ¬ (a.live && decide ((s.ccu ch).phase = .awaiting)) = true := by
      rw [Bool.and_eq_true, decide_eq_true_iff]
      rintro ⟨hl, hp⟩
      obtain h | h := hnot
      · exact h hp
      · rw [h] at hl; cases hl
    rw [exec_answerTaken hs ha, if_neg hclosed]
    rfl

section Reply

variable {s : State} {ch : Channel} (hs : s.resetAsserted = false)
include hs

theorem exec_replyWordRead_reply (hp : (s.ccu ch).phase = .reply) :
    exec (.replyWordRead ch) s = .next (s.setCcu ch (s.ccu ch).wordRead) := by
  change execReplyWordRead ch s = _
  rw [execReplyWordRead, live_next hs]
  simp only [hp]

theorem exec_replyWordRead_awaiting (hp : (s.ccu ch).phase = .awaiting) :
    exec (.replyWordRead ch) s = .next (s.setCcu ch { s.ccu ch with reading := true, handshake := .waits }) := by
  change execReplyWordRead ch s = _
  rw [execReplyWordRead, live_next hs]
  simp only [hp]

theorem exec_replyAbandoned_reply (hp : (s.ccu ch).phase = .reply) :
    exec (.replyAbandoned ch) s = .next (s.setCcu ch { s.ccu ch with
      phase := .idle, reply := [], discard := true, reading := false, handshake := .rest }) := by
  change execReplyAbandoned ch s = _
  rw [execReplyAbandoned, live_next hs]
  simp only [hp]

theorem exec_replyAbandoned_awaiting (hp : (s.ccu ch).phase = .awaiting) :
    exec (.replyAbandoned ch) s = .next (s.setCcu ch (s.ccu ch).answersInactive) := by
  change execReplyAbandoned ch s = _
  rw [execReplyAbandoned, live_next hs]
  simp only [hp]

end Reply

theorem wordRead_more {u : ChannelUnit} {w v : Word} {rest : List Word} (h : u.reply = w :: v :: rest) :
    u.wordRead = { u with reply := v :: rest, reading := true, handshake := .places } := by
  simp only [ChannelUnit.wordRead, h]

theorem wordRead_last {u : ChannelUnit} {w : Word} (h : u.reply = [w]) :
    u.wordRead = { u with phase := .idle, reply := [], reading := false, handshake := .rest } := by
  simp only [ChannelUnit.wordRead, h]

/-- Settles O10, by the phase of the unit and the words left. -/
theorem replyIsReadOrAbandoned : Obligations.ReplyIsReadOrAbandoned := by
  intro s ch hs
  refine ⟨fun w v rest hp hr => ?more, fun w hp hr => ?last, fun hp => ?abandoned,
    fun hp => ⟨exec_replyWordRead_awaiting hs hp, exec_replyAbandoned_awaiting hs hp⟩⟩
  case more =>
    rw [exec_replyWordRead_reply hs hp, wordRead_more hr]
    rfl
  case last =>
    rw [exec_replyWordRead_reply hs hp, wordRead_last hr]
    rfl
  case abandoned => exact exec_replyAbandoned_reply hs hp

/-! ### CLEAR_PORT -/

theorem exec_clearPort {s : State} {ch : Channel} (hs : s.resetAsserted = false)
    (hp : (s.ccu ch).phase ≠ .disconnected) : exec (.clearPort ch) s = .next (s.portCleared ch) := by
  change execClearPort ch s = _
  rw [execClearPort, live_next hs, if_neg hp]

/-- Settles O11: the command and its function word are one effect, and a unit in DISCONNECTED takes nothing. -/
theorem clearPortBeginsAgain : Obligations.ClearPortBeginsAgain := by
  refine ⟨fun s ch w c hs hp hw hc => ?cleared, fun s ch w c hp hc => ?disconnected⟩
  case cleared =>
    have hexec : exec c s = .next (s.portCleared ch) := by
      obtain rfl | rfl := hc
      · exact exec_clearPort hs hp
      · rw [exec_functionWord hs hp, functionTaken_clearPort (by rw [hw]; rfl)]
    rw [hexec, portCleared_eq hp]
    rfl
  case disconnected =>
    simp only [List.mem_cons, List.not_mem_nil, or_false] at hc
    obtain rfl | rfl | rfl | rfl | rfl | rfl := hc
    · exact show execFunctionWord ch w s = _ from live_same (if_pos hp)
    · rw [exec_stray (w := w) (.inr rfl) (by rw [hp]; decide)]
      exact live_same (strayOffered_of_silent (.inr hp))
    · exact show execShortParameters ch s = _ from live_same (if_neg (by rw [hp]; decide))
    · exact show execReplyWordRead ch s = _ from live_same (by simp only [hp])
    · exact show execReplyAbandoned ch s = _ from live_same (by simp only [hp])
    · exact show execClearPort ch s = _ from live_same (if_pos hp)

/-! ### The fields of a function word -/

theorem code_lt (r : Request) : r.code < 64 := by
  cases r <;> decide

theorem decodeRequest_code (r : Request) : decodeRequest r.code = some r := by
  cases r <;> rfl

theorem code_of_decodeRequest {n : Nat} {r : Request} (h : decodeRequest n = some r) : r.code = n := by
  unfold decodeRequest at h
  split at h <;> cases h <;> rfl

theorem toNat_encodeFunctionWord (r : Request) (sel : Pair) :
    (encodeFunctionWord r sel).toNat = r.code * 1024 + sel.val := by
  have hcode := code_lt r
  have hsel := sel.isLt
  rw [encodeFunctionWord, BitVec.toNat_ofNat]
  omega

/-- Settles O12: the code stands above the selector in the word, and each request has its own code. -/
theorem functionWordFieldsAreReadBack : Obligations.FunctionWordFieldsAreReadBack := by
  refine ⟨fun r sel => ⟨?code, ?selector⟩, fun w => ⟨?upper, ?lower⟩, fun n r h => code_of_decodeRequest h⟩
  case code =>
    have hsel := sel.isLt
    have hcode : functionCode (encodeFunctionWord r sel) = r.code := by
      rw [functionCode, toNat_encodeFunctionWord]
      omega
    rw [hcode, decodeRequest_code]
  case selector =>
    have hsel := sel.isLt
    apply Fin.ext
    change (encodeFunctionWord r sel).toNat % 8 = sel.val
    rw [toNat_encodeFunctionWord]
    omega
  case upper =>
    have hw := w.isLt
    rw [BitVec.extractLsb'_toNat, Nat.shiftRight_eq_div_pow, functionCode]
    omega
  case lower =>
    rw [BitVec.extractLsb'_toNat, Nat.shiftRight_zero]
    rfl

end Sys2Proof.Machine
end

section
/-! SUPPORT. Presence, and the checks every claim request shares. -/

namespace Sys2Proof.Machine

/-! ### The checks of a claim request -/

/-- The five claim requests are one rule each behind the same checks (R143). -/
theorem exec_claims {s : State} {ch : Channel} {c : Instr} {r : Request}
    (hc : (c, r) ∈ [(Instr.claim ch, Request.claim), (.claimIfClean ch, .claimIfClean), (.check ch, .check),
      (.takeover ch, .takeover), (.release ch, .release)]) :
    ∃ rule : Handed → State → Claim → ClaimResult,
      exec c s = serve s ch r fun h s => s.claimRequest h (decide (r = .check)) (rule h s) := by
  simp only [List.mem_cons, List.not_mem_nil, or_false, Prod.mk.injEq] at hc
  obtain ⟨rfl, rfl⟩ | ⟨rfl, rfl⟩ | ⟨rfl, rfl⟩ | ⟨rfl, rfl⟩ | ⟨rfl, rfl⟩ := hc
  · exact ⟨fun h s => claimRule ch (word (h.word 0)) s.epoch, rfl⟩
  · exact ⟨fun h s => claimIfCleanRule s.alarms.unclean ch (word (h.word 0)) s.epoch, rfl⟩
  · exact ⟨fun h _ => checkRule ch (word (h.word 0)), rfl⟩
  · exact ⟨fun h s => takeoverRule ch (word (h.word 0)) s.epoch, rfl⟩
  · exact ⟨fun _ s => releaseRule ch s.epoch, rfl⟩

theorem resource?_eq_none {sel : Pair} (h : 2 ≤ sel.val) : resource? sel = none := by
  unfold resource?
  split
  · omega
  · omega
  · rfl

section Checks

variable {s : State} {h : Handed} {openToObserve : Bool} {rule : Claim → ClaimResult}

theorem claimRequest_ignored (hv : PerChannel.get s.views h.channel = false ∨ h.lost = true) :
    s.claimRequest h openToObserve rule = s := by
  refine if_neg ?_
  rw [Bool.and_eq_true]
  rintro ⟨h1, h2⟩
  obtain e | e := hv
  · rw [e] at h1; cases h1
  · rw [e] at h2; cases h2

theorem claimRequest_checked (hv : PerChannel.get s.views h.channel = true) (hl : h.lost = false) :
    s.claimRequest h openToObserve rule = s.claimChecked h openToObserve rule :=
  if_pos (by rw [hv, hl]; rfl)

end Checks

/-- Settles O13, by the view, the permit and the modifier in that order. -/
theorem claimRequestsCheckedInOrder : Obligations.ClaimRequestsCheckedInOrder := by
  intro s ch c r h hc hs
  obtain ⟨rule, hexec⟩ := exec_claims (s := s) hc
  have hch : h.channel = ch := offers_channel hs
  rw [hexec, serve_offers hs]
  refine ⟨fun hv => ?ignored, fun hv hl hp hr => ?notPermitted, fun hv hl hp hsel => ?outOfRange⟩
  case ignored => rw [claimRequest_ignored (by rw [hch]; exact hv)]
  case notPermitted =>
    rw [claimRequest_checked (by rw [hch]; exact hv) hl, State.claimChecked,
      if_pos ⟨by rw [hch]; exact hp, decide_eq_false hr⟩]
    rfl
  case outOfRange =>
    have hpermit : ¬ (PerChannel.get (s.taken ch r).straps.permits h.channel = .observe ∧
        decide (r = .check) = false) := by
      rw [hch]
      rintro ⟨hobserve, hclosed⟩
      obtain hfull | hcheck := hp
      · cases hfull.symm.trans hobserve
      · exact of_decide_eq_false hclosed hcheck
    rw [claimRequest_checked (by rw [hch]; exact hv) hl, State.claimChecked, if_neg hpermit, resource?_eq_none hsel]
    rfl

/-! ### Records in order -/

theorem postList_append (s : State) (q : RQ) (l m : List RecordBody) :
    s.postList q (l ++ m) = (s.postList q l).postList q m := List.foldl_append

/-- Posting changes the report queues alone. -/
theorem postList_frame (s : State) (q : RQ) (l : List RecordBody) :
    s.postList q l = { s with queues := (s.postList q l).queues } := by
  induction l generalizing s with
  | nil => rfl
  | cons b l ih =>
    rw [postList_cons, ih]
    rfl

/-- What is posted depends on the report queues and the epoch count alone. -/
theorem queues_postList_congr {s t : State} (hq : t.queues = s.queues) (he : t.epoch = s.epoch) (q : RQ)
    (l : List RecordBody) : (t.postList q l).queues = (s.postList q l).queues := by
  induction l generalizing s t with
  | nil => exact hq
  | cons b l ih =>
    rw [postList_cons, postList_cons]
    exact ih (by rw [State.post, State.post, hq, he]) he

/-- The record of a cancelled entry goes where the records of the work go (R49, R52, R159). -/
theorem postCancelled_eq (s : State) (w : Work) : s.postCancelled w = s.post (s.workQueueOf w) w.cancelledRecord := by
  unfold State.postCancelled Work.cancelledRecord State.postWork State.workQueueOf
  cases w.kind with
  | sweep kind periods => cases w.origin <;> rfl
  | command n op attempts => cases w.origin <;> rfl

/-- The CANCELLED records of a channel's entries join its home queue (R49, R159). -/
theorem postCancelledAll_ofChannel {s : State} {ch : Channel} {l : List Work} (hl : ∀ w ∈ l, w.origin = .channel ch) :
    s.postCancelledAll l = s.postList (PerChannel.get s.homes ch) (l.map Work.cancelledRecord) := by
  induction l generalizing s with
  | nil => rfl
  | cons w l ih =>
    have hq : s.workQueueOf w = PerChannel.get s.homes ch := by
      rw [State.workQueueOf, hl w List.mem_cons_self]
    rw [State.postCancelledAll, ih fun x hx => hl x (List.mem_cons_of_mem _ hx), postCancelled_eq, hq]
    rfl

/-! ### The loss -/

/-- The records of a presence loss at the claims, LINE first (R149, R161). -/
def State.claimsLost (s : State) (ch : Channel) : List RecordBody :=
  (if s.lineClaim.owner = some ch then [RecordBody.claimLost .line ch .presenceLost] else []) ++
    if s.tablesClaim.owner = some ch then [RecordBody.claimLost .tables ch .presenceLost] else []

theorem queues_releaseLost (s : State) (ch : Channel) (r : Resource) : (s.releaseLost ch r).queues =
    (s.postList (PerChannel.get s.homes ch)
      (if (s.claim r).owner = some ch then [.claimLost r ch .presenceLost] else [])).queues := by
  unfold State.releaseLost State.holds
  by_cases h : (s.claim r).owner = some ch
  · rw [if_pos h, if_pos (decide_eq_true h)]
    cases r <;> rfl
  · rw [if_neg h, if_neg (by rwa [decide_eq_true_iff])]
    rfl

theorem queues_lossAtClaims (s : State) (ch : Channel) :
    (s.lossAtClaims ch).queues = (s.postList (PerChannel.get s.homes ch) (s.claimsLost ch)).queues := by
  let u : State := { s with views := PerChannel.set s.views ch false }
  have hframe := releaseLost_frame u ch .line
  have hhomes : (u.releaseLost ch .line).homes = s.homes := by rw [hframe]
  have hepoch : (u.releaseLost ch .line).epoch = s.epoch := by rw [hframe]
  have htables : (u.releaseLost ch .line).claim .tables = s.tablesClaim := by
    rw [claim_releaseLost]; rfl
  change ((u.releaseLost ch .line).releaseLost ch .tables).queues = _
  rw [queues_releaseLost, hhomes, htables, State.claimsLost, postList_append]
  refine queues_postList_congr ?_ ?_ _ _
  · rw [queues_releaseLost]
    exact queues_postList_congr (s := s) (t := u) rfl rfl _ _
  · rw [hepoch, postList_frame]

/-- A channel's entries of the Work Queue. -/
def State.entriesOf (s : State) (ch : Channel) : List Work := s.workQueue.filter (Work.ofChannel ch)

theorem origin_of_mem_entriesOf {s : State} {ch : Channel} {w : Work} (h : w ∈ s.entriesOf ch) :
    w.origin = .channel ch := of_decide_eq_true (List.mem_filter.mp h).2

section Loss

variable (s : State) (ch : Channel) (before : Nat)

/-- The report queues after a presence loss: the channel's records in the order of R161. -/
theorem queues_lossTaken : (s.lossTaken ch before).queues = (s.postList (PerChannel.get s.homes ch)
    (((s.entriesOf ch).map Work.cancelledRecord).take before ++ s.claimsLost ch ++
      ((s.entriesOf ch).map Work.cancelledRecord).drop before)).queues := by
  set u : State := { s with workQueue := s.workQueue.filter fun w => !Work.ofChannel ch w } with hu
  have hfirst : ∀ w ∈ (s.entriesOf ch).take before, w.origin = .channel ch := fun w hw =>
    origin_of_mem_entriesOf (List.mem_of_mem_take hw)
  have hrest : ∀ w ∈ (s.entriesOf ch).drop before, w.origin = .channel ch := fun w hw =>
    origin_of_mem_entriesOf (List.mem_of_mem_drop hw)
  set v : State := u.postCancelledAll ((s.entriesOf ch).take before) with hv
  have hvlist : v = u.postList (PerChannel.get s.homes ch) (((s.entriesOf ch).take before).map Work.cancelledRecord) :=
    postCancelledAll_ofChannel (s := u) hfirst
  have hvframe : v = { u with queues := v.queues } := postCancelledAll_frame ..
  have hhomes : v.homes = s.homes := by rw [hvframe]
  have hlost : v.claimsLost ch = s.claimsLost ch := by rw [hvframe]; rfl
  change ((v.lossAtClaims ch).postCancelledAll ((s.entriesOf ch).drop before)).queues = _
  have hwhomes : (v.lossAtClaims ch).homes = s.homes := by rw [lossAtClaims_frame]; exact hhomes
  have hwepoch : (v.lossAtClaims ch).epoch = v.epoch := by rw [lossAtClaims_frame]
  rw [postCancelledAll_ofChannel hrest, hwhomes, postList_append, postList_append, ← List.map_take, ← List.map_drop]
  have huv : (v.postList (PerChannel.get s.homes ch) (s.claimsLost ch)).queues =
      ((s.postList (PerChannel.get s.homes ch) (((s.entriesOf ch).take before).map Work.cancelledRecord)).postList
        (PerChannel.get s.homes ch) (s.claimsLost ch)).queues := by
    refine queues_postList_congr ?_ ?_ _ _
    · rw [hvlist]
      exact queues_postList_congr (s := s) (t := u) rfl rfl _ _
    · rw [hvframe, postList_frame]
  refine queues_postList_congr ?_ ?_ _ _
  · rw [queues_lossAtClaims, hhomes, hlost, huv]
  · rw [hwepoch, hvframe, postList_frame, postList_frame]

/-- A presence loss at the claims and the queues leaves the channels, their requests and the answers alone. -/
theorem lossTaken_frame : s.lossTaken ch before = { s with
    views := PerChannel.set s.views ch false, lineClaim := (s.lossTaken ch before).lineClaim
    tablesClaim := (s.lossTaken ch before).tablesClaim
    workQueue := s.workQueue.filter (fun w => !Work.ofChannel ch w), queues := (s.lossTaken ch before).queues } := by
  unfold State.lossTaken
  rw [postCancelledAll_frame, lossAtClaims_frame, postCancelledAll_frame]

theorem claim_lossTaken (r : Resource) : (s.lossTaken ch before).claim r =
    if (s.claim r).owner = some ch then ⟨none, 0, s.epoch⟩ else s.claim r := by
  have claim_of_frame (u : State) (l : List Work) : (u.postCancelledAll l).claim r = u.claim r := by
    rw [postCancelledAll_frame]
    cases r <;> rfl
  have hepoch (u : State) (l : List Work) : (u.postCancelledAll l).epoch = u.epoch := by
    rw [postCancelledAll_frame]
  unfold State.lossTaken
  dsimp only
  rw [claim_of_frame, claim_lossAtClaims, claim_of_frame, hepoch]
  cases r <;> rfl

end Loss

/-! ### PRESENCE_LOSS and PRESENCE_RETURN -/

/-- The part with the presence line of a channel moved and, for a loss, what the channel has handed over marked. -/
def State.lossMarked (s : State) (ch : Channel) : State :=
  ((({ s with presenceLine := PerChannel.set s.presenceLine ch false } : State).markStale ch).markLost ch).setCcu ch
    (.reset false)

theorem exec_presenceLoss {s : State} {ch : Channel} (hs : s.resetAsserted = false)
    (hp : (s.ccu ch).phase ≠ .disconnected) (before : Nat) :
    exec (.presenceLoss ch before) s = .next ((s.lossMarked ch).lossTaken ch before) := by
  change execPresenceLoss ch before s = _
  rw [execPresenceLoss]
  refine (live_next (by exact hs) _).trans ?_
  exact congrArg Host.Outcome.next (if_neg hp)

theorem exec_presenceLoss_line {s : State} {ch : Channel} (h : s.resetAsserted = true ∨ (s.ccu ch).phase = .disconnected)
    (before : Nat) : exec (.presenceLoss ch before) s =
    .next { s with presenceLine := PerChannel.set s.presenceLine ch false } := by
  change execPresenceLoss ch before s = _
  rw [execPresenceLoss]
  obtain hr | hp := h
  · exact live_held (by exact hr) _
  · exact live_same (if_pos hp)

theorem exec_presenceReturn_line {s : State} {ch : Channel} (h : s.resetAsserted = true ∨ (s.ccu ch).phase ≠ .disconnected) :
    exec (.presenceReturn ch) s = .next { s with presenceLine := PerChannel.set s.presenceLine ch true } := by
  change execPresenceReturn ch s = _
  rw [execPresenceReturn]
  obtain hr | hp := h
  · exact live_held (by exact hr) _
  · exact live_same (if_neg hp)

section Marked

variable (s : State) (ch : Channel)

theorem handed_lossMarked : (s.lossMarked ch).handed =
    s.handed.map fun h => if h.channel = ch then { h with live := false, lost := true } else h := by
  change (s.handed.map _).map _ = _
  rw [List.map_map]
  refine List.map_congr_left fun h _ => ?_
  by_cases hc : h.channel = ch <;> simp [hc]

/-- A mapping that keeps a channel's elements the channel's, and leaves the others, keeps the others. -/
theorem filter_map_other {α : Type} (l : List α) (f : α → α) (p : α → Bool) (hf : ∀ a, p (f a) = p a)
    (hsame : ∀ a, p a = true → f a = a) : (l.map f).filter p = l.filter p := by
  induction l with
  | nil => rfl
  | cons a l ih =>
    rw [List.map_cons, List.filter_cons, List.filter_cons, ih, hf]
    split
    next h => rw [hsame a h]
    next => rfl

end Marked

/-- Settles O6: a loss is taken by the unit, the requests on their way, the claims and the queues in turn, and a return by
the unit and the view. -/
theorem presenceMovesTheChannel : Obligations.PresenceMovesTheChannel := by
  refine ⟨fun s ch before hs hp => ⟨_, exec_presenceLoss hs hp before, ?lost⟩, fun s ch hs hp => ?returned,
    fun s ch hp => exec_presenceReturn_line (.inr hp), fun s ch before hp => exec_presenceLoss_line (.inr hp) before,
    fun s ch hr => ⟨exec_presenceReturn_line (.inl hr), fun before => exec_presenceLoss_line (.inl hr) before⟩⟩
  case returned =>
    change execPresenceReturn ch s = _
    rw [execPresenceReturn]
    refine (live_next (by exact hs) _).trans ?_
    exact congrArg Host.Outcome.next (if_pos hp)
  case lost =>
    have hframe := lossTaken_frame (s.lossMarked ch) ch before
    have hclaim := claim_lossTaken (s.lossMarked ch) ch before
    have hqueues := queues_lossTaken (s.lossMarked ch) ch before
    generalize (s.lossMarked ch).lossTaken ch before = t at *
    have hchannels : t.channels = PerChannel.set s.channels ch (.reset false) := by rw [hframe]; rfl
    have hviews : t.views = PerChannel.set s.views ch false := by rw [hframe]; rfl
    have hline : t.presenceLine = PerChannel.set s.presenceLine ch false := by rw [hframe]; rfl
    have hhanded : t.handed = s.handed.map fun h => if h.channel = ch then { h with live := false, lost := true } else h := by
      rw [hframe]; exact handed_lossMarked s ch
    have hanswers : t.answers = s.answers.map fun a => if a.channel = ch then { a with live := false } else a := by
      rw [hframe]; rfl
    refine ⟨?unit, ?view, ?line, fun r => ?claims, ?workQueue, ?deferred, fun d hd => ?others, ?records, ?requests,
      fun h hh hch => ?staleRequests, fun a ha hch => ?staleAnswers, ?otherRequests, ?otherAnswers, ?frame⟩
    case unit => rw [State.ccu, hchannels, PerChannel.get_set_same]; rfl
    case view => rw [hviews, PerChannel.get_set_same]
    case line => rw [hline, PerChannel.get_set_same]
    case claims => rw [hclaim]; cases r <;> rfl
    case workQueue =>
      rw [hframe]
      change s.workQueue.filter _ = _
      exact List.filter_congr fun w _ => (decide_not ..).symm
    case deferred => rw [hframe]; rfl
    case others =>
      rw [State.ccu, hchannels, hviews, hline]
      exact ⟨PerChannel.get_set_other _ _ hd, PerChannel.get_set_other _ _ hd, PerChannel.get_set_other _ _ hd⟩
    case records =>
      rw [hqueues]
      exact queues_postList_congr (s := s) (t := s.lossMarked ch) rfl rfl _ _
    case requests =>
      rw [hhanded, List.map_map]
      refine List.map_congr_left fun h _ => ?_
      by_cases hc : h.channel = ch <;> simp [hc]
    case staleRequests =>
      rw [hhanded] at hh
      obtain ⟨g, -, rfl⟩ := List.mem_map.mp hh
      by_cases hc : g.channel = ch
      · rw [if_pos hc]; exact ⟨rfl, rfl⟩
      · rw [if_neg hc] at hch; exact absurd hch hc
    case staleAnswers =>
      rw [hanswers] at ha
      obtain ⟨b, -, rfl⟩ := List.mem_map.mp ha
      by_cases hc : b.channel = ch
      · rw [if_pos hc]
      · rw [if_neg hc] at hch; exact absurd hch hc
    case otherRequests =>
      rw [hhanded]
      refine filter_map_other _ _ _ (fun h => ?_) fun h hh => if_neg (of_decide_eq_true hh)
      split <;> rfl
    case otherAnswers =>
      rw [hanswers]
      refine filter_map_other _ _ _ (fun a => ?_) fun a ha => if_neg (of_decide_eq_true ha)
      split <;> rfl
    case frame =>
      rw [hframe]
      rfl

end Sys2Proof.Machine
end

section
/-! SUPPORT. The watch point requests and the pair policy: what their tests say, what a write leaves in the tables, and the
statements about the requests assembled from them. -/

namespace Sys2Proof.Machine

/-! ### Shared by the requests -/

/-- A request that changes watch points alone is served with no other change. -/
theorem accepted_frame_of_watchPoints {s u : State} {ch : Channel} {r : Request} {h : Handed} {clamped : Bool}
    {data : List Word} {w : Memory WatchPoint} (hu : u = { s.taken ch r with watchPoints := w }) :
    u.accepted h clamped data =
      { s.served ch r h (.okClamped clamped data) with watchPoints := (u.accepted h clamped data).watchPoints } := by
  subst hu
  rfl

theorem notHousing_iff {n : Nat} : notHousing n = true ↔ 192 < n := by
  rw [notHousing, outside_iff]
  omega

theorem queue?_of_le {n : Nat} (h : n ≤ 3) : ∃ q, queue? n = some q := by
  cases e : queue? n with
  | some q => exact ⟨q, rfl⟩
  | none =>
    have hout : 3 < n := queue?_isNone.mp (by rw [e]; rfl)
    omega

/-- Watch points other than the one written, in the words of the statements. -/
theorem wp_setWp_elsewhere (s : State) {p q : Pair} {n i : Nat} (w : WatchPoint) (hn : n ≤ 192) (hi : i ≤ 192)
    (hne : q ≠ p ∨ i ≠ n) : (s.setWp p n w).wp q i = s.wp q i :=
  wp_setWp_other s w hn hi (by simpa only [ne_eq, Prod.mk.injEq, not_and_or] using hne)

/-! ### WRITE_WATCH_POINT and WRITE_BASELINE -/

theorem watchPointOutside_iff {s : State} {ch : Channel} {r : Request} {h : Handed} :
    ((s.taken ch r).unfitted h || notHousing (h.word 0) || outside 0 3 (h.word 1) || (queue? (h.word 2)).isNone
      || (onOff? (h.word 3)).isNone) = true ↔
      s.notFitted h.selector ∨ 192 < h.word 0 ∨ 3 < h.word 1 ∨ 3 < h.word 2 ∨ 1 < h.word 3 := by
  simp only [Bool.or_eq_true, unfitted_taken, notHousing_iff, outside_iff, queue?_isNone, onOff?_isNone, or_assoc,
    Nat.not_lt_zero, false_or]

/-- Settles O21: the tests of both requests say their conditions, and each writes the one watch point it names. -/
theorem watchPointFieldsAreWritten : Obligations.WatchPointFieldsAreWritten := by
  refine ⟨?watchPoint, ?baseline⟩
  case watchPoint =>
    intro s ch h hs p n
    refine judged_intro (serve_offers hs fun h s => s.writeWatchPoint h) ?checks fun passed => ?done
    case checks =>
      exact .cons ⟨lacksTables_taken (offers_channel hs), rfl⟩ (.cons ⟨watchPointOutside_iff, rfl⟩
        (.cons ⟨busy_taken, rfl⟩ (.cons ⟨Iff.rfl, rfl⟩ .nil)))
    case done =>
      have hrange := passed _ (.tail _ (.head _))
      simp only [not_or, Nat.not_lt] at hrange
      obtain ⟨-, hn, -, hq, htracking⟩ := hrange
      obtain ⟨q, hq⟩ := queue?_of_le hq
      refine ⟨⟨q, hq, ?written⟩, fun p' i hi hne => ?others, accepted_frame_of_watchPoints rfl⟩
      case written =>
        rw [wp_accepted, State.configure, wp_setWp_same, hq, onOff?_of_le_one htracking]
        rfl
      case others => exact wp_setWp_elsewhere (s.taken ch .writeWatchPoint) _ hn hi hne
  case baseline =>
    intro s ch h hs p n
    refine judged_intro (serve_offers hs fun h s => s.writeBaseline h) (housingChecks_iff (offers_channel hs))
      fun passed => ⟨?written, fun p' i hi hne => ?others, accepted_frame_of_watchPoints rfl⟩
    case written =>
      rw [wp_accepted, State.storeBaseline, wp_setWp_same]
      rfl
    case others =>
      have hrange := passed _ (.tail _ (.head _))
      exact wp_setWp_elsewhere (s.taken ch .writeBaseline) _ (by omega) hi hne

/-! ### ENABLE_WATCH_POINTS and DISABLE_WATCH_POINTS -/

/-- A record that an enable or a disable changes (R27, R28). -/
def State.enableChanges (s : State) (p : Pair) (b : Bool) (i : Nat) : Bool :=
  decide ((s.wp p i).enabled ≠ b) && (!b || s.present i)

theorem toEnable_eq (s : State) (p : Pair) (first last : Nat) :
    s.toEnable p first last = (housingRange first last).filter (s.enableChanges p true) :=
  List.filter_congr fun i _ => by cases h : (s.wp p i).enabled <;> simp [State.enableChanges, h]

theorem toDisable_eq (s : State) (p : Pair) (first last : Nat) :
    s.toDisable p first last = (housingRange first last).filter (s.enableChanges p false) :=
  List.filter_congr fun i _ => by cases h : (s.wp p i).enabled <;> simp [State.enableChanges, h]

/-- The enabled fields of a range set to `b` where that changes them. -/
def State.enabledSet (s : State) (p : Pair) (first last : Nat) (b : Bool) : State :=
  s.setEnabled p ((housingRange first last).filter (s.enableChanges p b)) b

/-- Both requests are one operation on the enabled fields (R27, R28). -/
theorem exec_enable_offers {s : State} {ch : Channel} {r : Request} {h : Handed} {b : Bool} {c : Instr}
    (hc : (c, r, b) ∈ [(Instr.enableWatchPoints ch, Request.enableWatchPoints, true),
      (.disableWatchPoints ch, .disableWatchPoints, false)]) (hs : s.offers ch r h) :
    exec c s = .next ((s.taken ch r).decided h ((s.taken ch r).rangeChecks h)
      (((s.taken ch r).enabledSet h.selector (h.word 0) (h.word 1) b).accepted h false
        [word ((housingRange (h.word 0) (h.word 1)).filter (s.enableChanges h.selector b)).length])) := by
  simp only [List.mem_cons, List.not_mem_nil, or_false, Prod.mk.injEq] at hc
  obtain ⟨rfl, rfl, rfl⟩ | ⟨rfl, rfl, rfl⟩ := hc
  · refine (serve_offers hs fun h s => s.enableWatchPoints h).trans (congrArg Host.Outcome.next ?_)
    rw [State.enableWatchPoints, toEnable_eq]
    rfl
  · refine (serve_offers hs fun h s => s.disableWatchPoints h).trans (congrArg Host.Outcome.next ?_)
    rw [State.disableWatchPoints, toDisable_eq]
    rfl

theorem rangeChecks_iff {s : State} {ch : Channel} {r : Request} {h : Handed} (hc : h.channel = ch) :
    List.Forall₂ (fun a b => (a.1 = true ↔ b.1) ∧ a.2 = b.2) ((s.taken ch r).rangeChecks h)
      [(s.tablesClaim.owner ≠ some ch, .notClaimed),
       (s.notFitted h.selector ∨ 192 < h.word 0 ∨ 192 < h.word 1, .outOfRange),
       (s.isBusy h.selector, .pairBusy), (h.word 1 < h.word 0, .outOfRange)] := by
  have hrange : ((s.taken ch r).unfitted h || notHousing (h.word 0) || notHousing (h.word 1)) = true ↔
      s.notFitted h.selector ∨ 192 < h.word 0 ∨ 192 < h.word 1 := by
    simp only [Bool.or_eq_true, unfitted_taken, notHousing_iff, or_assoc]
  exact .cons ⟨lacksTables_taken hc, rfl⟩ (.cons ⟨hrange, rfl⟩ (.cons ⟨busy_taken, rfl⟩
    (.cons ⟨decide_eq_true_iff, rfl⟩ .nil)))

/-- The records of a range that change, counted along the whole table. -/
theorem length_filter_housingRange {first last : Nat} (hl : last ≤ 192) (f : Nat → Bool) :
    ((housingRange first last).filter f).length =
      ((List.range 193).filter fun i => decide (first ≤ i ∧ i ≤ last) && f i).length := by
  refine List.Perm.length_eq ((List.perm_ext_iff_of_nodup ((housingRange_nodup _ _).filter _)
    (List.nodup_range.filter _)).mpr fun i => ?_)
  simp only [List.mem_filter, mem_housingRange, List.mem_range, Bool.and_eq_true, decide_eq_true_eq]
  constructor
  · rintro ⟨hi, hf⟩
    exact ⟨by omega, hi, hf⟩
  · rintro ⟨-, hi, hf⟩
    exact ⟨hi, hf⟩

/-- Settles O22: both requests set the enabled fields that change, and count them. -/
theorem enableCountsItsChanges : Obligations.EnableCountsItsChanges := by
  intro s ch r h b c hc hs p first last changes
  refine judged_intro (exec_enable_offers hc hs) (rangeChecks_iff (offers_channel hs)) fun passed =>
    ⟨fun p' i hi => ?fields, ?frame⟩
  case fields =>
    have hlast : last ≤ 192 := by
      have hrange := passed _ (.tail _ (.head _))
      omega
    have hbound : ∀ j ∈ (housingRange first last).filter (s.enableChanges p b), j ≤ 192 := fun j hj =>
      (mem_housingRange.mp (List.mem_filter.mp hj).1).2.trans hlast
    have hmem : i ∈ (housingRange first last).filter (s.enableChanges p b) ↔ changes i = true := by
      simp only [List.mem_filter, mem_housingRange, changes, State.enableChanges, Bool.and_eq_true, decide_eq_true_eq,
        and_assoc]
    rw [wp_accepted]
    refine (wp_updateWps (s.taken ch r) p p' _ _ i ((housingRange_nodup first last).filter _) hbound hi).trans ?_
    rw [wp_taken]
    exact if_congr (and_congr_right fun _ => hmem) rfl rfl
  case frame =>
    have hlast : last ≤ 192 := by
      have hrange := passed _ (.tail _ (.head _))
      omega
    have hcount : ((housingRange first last).filter (s.enableChanges p b)).length =
        ((List.range 193).filter changes).length := by
      rw [length_filter_housingRange hlast]
      exact congrArg List.length (List.filter_congr fun i _ => (Bool.and_assoc ..).symm)
    rw [hcount]
    exact accepted_frame_of_watchPoints rfl

/-! ### WRITE_PAIR_POLICY -/

theorem policyOutside_iff {s : State} {ch : Channel} {r : Request} {h : Handed} :
    ((s.taken ch r).unfitted h || h.policy?.isNone) = true ↔
      s.notFitted h.selector ∨ 1 < h.word 4 ∨ 1 < h.word 10 ∨ 3 < h.word 11 := by
  have hpolicy : h.policy?.isNone = true ↔ 1 < h.word 4 ∨ 1 < h.word 10 ∨ 3 < h.word 11 := by
    rw [← onOff?_isNone, ← onOff?_isNone, ← queue?_isNone]
    unfold Handed.policy?
    cases onOff? (h.word 4) <;> cases onOff? (h.word 10) <;> cases queue? (h.word 11) <;> simp
  rw [Bool.or_eq_true, unfitted_taken, hpolicy]

/-- The policy of words that are all encodings, clamped to the nearer ends (R33). -/
theorem policy?_of_encodings {h : Handed} {q : RQ} (h4 : h.word 4 ≤ 1) (h10 : h.word 10 ≤ 1)
    (hq : queue? (h.word 11) = some q) : h.policy? = some
      { watchThreshold := h.word 0, degradeThreshold := h.word 1, floorThreshold := h.word 2
        levelMin := min 32767 (h.word 3), normalise := decide (h.word 4 = 1)
        refFloor := max 1 (min 32767 (h.word 5)), confirmCount := max 1 (min 8 (h.word 6))
        recoveryDepth := max 1 (min 4 (h.word 7)), tolerance := min 256 (h.word 8), clipLimit := h.word 9
        autoIsolate := decide (h.word 10 = 1), verdictQueue := q
        responsePeriods := max 1 (min 16 (h.word 12)), busyLimit := max 1 (min 255 (h.word 13)) } := by
  rw [Handed.policy?, onOff?_of_le_one h4, onOff?_of_le_one h10, hq]
  dsimp only
  rw [clampTo_eq (n := h.word 3) (by decide), clampTo_eq (n := h.word 5) (by decide),
    clampTo_eq (n := h.word 6) (by decide), clampTo_eq (n := h.word 7) (by decide),
    clampTo_eq (n := h.word 8) (by decide), clampTo_eq (n := h.word 12) (by decide),
    clampTo_eq (n := h.word 13) (by decide), Nat.zero_max, Nat.zero_max]

theorem policyClamped_eq (h : Handed) : h.policyClamped = decide (32767 < h.word 3 ∨ h.word 5 < 1 ∨ 32767 < h.word 5 ∨
    h.word 6 < 1 ∨ 8 < h.word 6 ∨ h.word 7 < 1 ∨ 4 < h.word 7 ∨ 256 < h.word 8 ∨ h.word 12 < 1 ∨ 16 < h.word 12 ∨
    h.word 13 < 1 ∨ 255 < h.word 13) := by
  rw [Bool.eq_iff_iff, decide_eq_true_iff]
  simp only [Handed.policyClamped, Bool.or_eq_true, outside_iff, or_assoc, Nat.not_lt_zero, false_or]

/-- A policy stored with the effect of a change of normalise (R34). -/
def State.normalised (s : State) (p : Pair) (v : Policy) : State :=
  if (s.policy p).normalise ≠ v.normalise then (s.setPolicy p v).normaliseChanged p else s.setPolicy p v

section StorePolicy

variable (s : State) (p : Pair) (v : Policy)

theorem storePolicy_eq : s.storePolicy p v =
    if (s.policy p).autoIsolate && !v.autoIsolate then (s.normalised p v).autoIsolateOff p else s.normalised p v := rfl

theorem normalised_frame : s.normalised p v =
    { s with policies := (s.setPolicy p v).policies, watchPoints := (s.normalised p v).watchPoints } := by
  by_cases hv : (s.policy p).normalise = v.normalise
  · have e : s.normalised p v = s.setPolicy p v := if_neg (not_not.mpr hv)
    rw [e]
    rfl
  · have e : s.normalised p v = (s.setPolicy p v).updateWps p repeaters fun _ w => w.unreferenced := if_pos hv
    have hframe := updateWps_frame (s.setPolicy p v) p repeaters fun _ w => w.unreferenced
    rw [e]
    generalize (s.setPolicy p v).updateWps p repeaters (fun _ w => w.unreferenced) = t at hframe ⊢
    exact hframe

theorem wp_normalised (q : Pair) {i : Nat} (hi : i ≤ 192) : (s.normalised p v).wp q i =
    if q = p ∧ 1 ≤ i ∧ (s.policy p).normalise ≠ v.normalise then (s.wp q i).unreferenced else s.wp q i := by
  unfold State.normalised
  by_cases hv : (s.policy p).normalise = v.normalise
  · simp only [hv, ne_eq, not_true_eq_false, and_false, if_false]
    rfl
  · rw [if_pos hv, State.normaliseChanged,
      wp_updateWps _ _ _ _ _ _ repeaters_nodup (fun h hh => (mem_repeaters.mp hh).2) hi]
    simp only [mem_repeaters, hi, hv, and_true, ne_eq, not_false_eq_true]
    rfl

/-- Auto-isolate going off touches the Isolation Queue and the Verdict Registers. -/
theorem autoIsolateOff_frame : s.autoIsolateOff p = { s with
    isolationQueue := (s.autoIsolateOff p).isolationQueue, verdicts := (s.autoIsolateOff p).verdicts } := by
  unfold State.autoIsolateOff
  dsimp only
  split
  · split <;> rfl
  · rfl

theorem isolationQueue_autoIsolateOff : (s.autoIsolateOff p).isolationQueue =
    s.isolationQueue.filter fun w => decide (w.pair ≠ p) := by
  have hfilter : s.isolationQueue.filter (fun w => !Work.ofPair p w) =
      s.isolationQueue.filter fun w => decide (w.pair ≠ p) := List.filter_congr fun w _ => (decide_not ..).symm
  unfold State.autoIsolateOff
  dsimp only
  split
  · split <;> exact hfilter
  · next hnone =>
    refine (List.filter_eq_self.mpr fun w hw => ?_).symm
    simp only [List.any_eq_true, not_exists, not_and] at hnone
    simpa [Work.ofPair] using hnone w hw

variable {s p}

theorem verdict_withdraw (f : Work → Bool) : (s.withdraw f).verdict p = s.verdict p := rfl

theorem any_ofPair_iff : s.isolationQueue.any (Work.ofPair p) = true ↔ ∃ w ∈ s.isolationQueue, w.pair = p := by
  simp only [List.any_eq_true, Work.ofPair, decide_eq_true_eq]

theorem autoIsolateOff_pending (hq : ∃ w ∈ s.isolationQueue, w.pair = p) (hp : (s.verdict p).status = .pending) :
    (s.autoIsolateOff p).verdicts = (s.setStatus p .notPermitted).verdicts := by
  unfold State.autoIsolateOff
  rw [if_pos (any_ofPair_iff.mpr hq)]
  dsimp only
  rw [verdict_withdraw, if_pos hp]
  rfl

theorem autoIsolateOff_other (h : ¬ (∃ w ∈ s.isolationQueue, w.pair = p) ∨ (s.verdict p).status ≠ .pending) :
    (s.autoIsolateOff p).verdicts = s.verdicts := by
  unfold State.autoIsolateOff
  dsimp only
  split
  next hq =>
    obtain hn | hp := h
    · exact absurd (any_ofPair_iff.mp hq) hn
    · rw [verdict_withdraw, if_neg hp]
      rfl
  next => rfl

theorem verdict_autoIsolateOff_pending (hq : ∃ w ∈ s.isolationQueue, w.pair = p) (hp : (s.verdict p).status = .pending)
    (q : Pair) : (s.autoIsolateOff p).verdict q = (s.setStatus p .notPermitted).verdict q := by
  rw [State.verdict, autoIsolateOff_pending hq hp, State.verdict]

theorem verdict_autoIsolateOff_other (h : ¬ (∃ w ∈ s.isolationQueue, w.pair = p) ∨ (s.verdict p).status ≠ .pending)
    (q : Pair) : (s.autoIsolateOff p).verdict q = s.verdict q := by
  rw [State.verdict, autoIsolateOff_other h, State.verdict]

variable (s p)

/-- A stored policy touches policies, watch points, the Isolation Queue and Verdict Registers alone. -/
theorem storePolicy_frame : ∃ l m, s.storePolicy p v = { s with
    policies := (s.setPolicy p v).policies, watchPoints := (s.normalised p v).watchPoints, isolationQueue := l
    verdicts := m } := by
  have hn := normalised_frame s p v
  rw [storePolicy_eq]
  generalize s.normalised p v = u at *
  split
  · have ho := autoIsolateOff_frame u p
    generalize u.autoIsolateOff p = t at *
    exact ⟨t.isolationQueue, t.verdicts, by rw [ho, hn]⟩
  · exact ⟨s.isolationQueue, s.verdicts, hn⟩

end StorePolicy

/-- A request that changes policies, watch points, the Isolation Queue and Verdict Registers alone is served with no other
change. -/
theorem accepted_frame_of_policy {s u : State} {ch : Channel} {r : Request} {h : Handed} {clamped : Bool}
    {m : Memory Policy} {w : Memory WatchPoint} {l : List Work} {v : Memory VerdictRegister}
    (hu : u = { s.taken ch r with policies := m, watchPoints := w, isolationQueue := l, verdicts := v }) :
    u.accepted h clamped [] =
      { s.served ch r h (.okClamped clamped []) with
        policies := (u.accepted h clamped []).policies, watchPoints := (u.accepted h clamped []).watchPoints
        isolationQueue := (u.accepted h clamped []).isolationQueue
        verdicts := (u.accepted h clamped []).verdicts } := by
  subst hu
  rfl

/-- Settles O23: the tests of the request say their conditions; the stored policy, the change of normalise and auto-isolate
going off touch different fields. -/
theorem pairPolicyIsReplacedWhole : Obligations.PairPolicyIsReplacedWhole := by
  intro s ch h hs p old turnedOff queued
  refine judged_intro (serve_offers hs fun h s => s.writePairPolicy h) ?checks fun passed => ?done
  case checks =>
    have horder : (!thresholdsOrdered (h.word 0) (h.word 1) (h.word 2)) = true ↔
        ¬ (0 < h.word 2 ∧ h.word 2 < h.word 1 ∧ h.word 1 < h.word 0 ∧ h.word 0 ≤ 1024) := by
      rw [Bool.not_eq_true', thresholdsOrdered, decide_eq_false_iff_not]
    exact .cons ⟨lacksTables_taken (offers_channel hs), rfl⟩ (.cons ⟨policyOutside_iff, rfl⟩
      (.cons ⟨busy_taken, rfl⟩ (.cons ⟨horder, rfl⟩ .nil)))
  case done =>
    have hrange := passed _ (.tail _ (.head _))
    simp only [not_or, Nat.not_lt] at hrange
    obtain ⟨-, h4, h10, h11⟩ := hrange
    obtain ⟨q, hq⟩ := queue?_of_le h11
    rw [policy?_of_encodings h4 h10 hq, Option.getD_some, policyClamped_eq]
    set v : Policy := ⟨_, _, _, _, _, _, _, _, _, _, _, _, _, _⟩ with hv
    set u := s.taken ch .writePairPolicy with hu
    obtain ⟨l, m, hframe⟩ := storePolicy_frame u p v
    have hoff : (old.autoIsolate && !v.autoIsolate) = true ↔ turnedOff := by
      simp only [Bool.and_eq_true, Bool.not_eq_true', hv, decide_eq_false_iff_not, turnedOff]
      exact and_congr_right fun _ => by omega
    have hstoreOff (ht : turnedOff) : u.storePolicy p v = (u.normalised p v).autoIsolateOff p :=
      (storePolicy_eq u p v).trans (if_pos (hoff.mpr ht))
    have hstoreOn (ht : ¬ turnedOff) : u.storePolicy p v = u.normalised p v :=
      (storePolicy_eq u p v).trans (if_neg (mt hoff.mp ht))
    have hnormalised := normalised_frame u p v
    have hqueue : (u.normalised p v).isolationQueue = s.isolationQueue := by rw [hnormalised]; rfl
    have hverdict (p' : Pair) : (u.normalised p v).verdict p' = s.verdict p' := by rw [hnormalised]; rfl
    have hpolicy (p' : Pair) : (u.storePolicy p v).policy p' = (u.setPolicy p v).policy p' := by rw [hframe]; rfl
    refine ⟨⟨q, hq, ?policy⟩, fun p' hp' => ?otherPolicies, fun p' i hi => ?watchPoints, fun ht => ?withdrawn,
      fun ht => ?queue, fun ht hqd hpend => ?notPermitted, fun hkeep => ?status, fun p' hp' => ?otherVerdicts, ?frame⟩
    case policy => exact (hpolicy p).trans (policy_setPolicy_same ..)
    case otherPolicies => exact (hpolicy p').trans (policy_setPolicy_other _ _ hp')
    case watchPoints =>
      have hwp : (u.storePolicy p v).wp p' i = (u.normalised p v).wp p' i := by rw [hframe]; rfl
      rw [wp_accepted, hwp, wp_normalised _ _ _ _ hi]
      exact ite_congr rfl (fun hc => by rw [hc.1]; rfl) fun _ => rfl
    case withdrawn =>
      rw [isolationQueue_accepted, hstoreOff ht, isolationQueue_autoIsolateOff, hqueue]
    case queue => rw [isolationQueue_accepted, hstoreOn ht, hqueue]
    case notPermitted =>
      rw [verdict_accepted, hstoreOff ht, verdict_autoIsolateOff_pending (hqueue ▸ hqd) (by rw [hverdict]; exact hpend),
        State.setStatus, verdict_setVerdict_same, hverdict]
    case status =>
      rw [verdict_accepted]
      by_cases ht : turnedOff
      · have hother : ¬ queued ∨ (s.verdict p).status ≠ .pending := by
          obtain hn | h' := hkeep
          · exact absurd ht hn
          · exact h'
        rw [hstoreOff ht, verdict_autoIsolateOff_other (by rw [hqueue, hverdict]; exact hother), hverdict]
      · rw [hstoreOn ht, hverdict]
    case otherVerdicts =>
      rw [verdict_accepted]
      by_cases ht : turnedOff
      · by_cases hqp : queued ∧ (s.verdict p).status = .pending
        · rw [hstoreOff ht, verdict_autoIsolateOff_pending (hqueue ▸ hqp.1) (by rw [hverdict]; exact hqp.2),
            State.setStatus, verdict_setVerdict_other _ _ hp', hverdict]
        · have hother : ¬ queued ∨ (s.verdict p).status ≠ .pending := not_and_or.mp hqp
          rw [hstoreOff ht, verdict_autoIsolateOff_other (by rw [hqueue, hverdict]; exact hother), hverdict]
      · rw [hstoreOn ht, hverdict]
    case frame => exact accepted_frame_of_policy hframe

end Sys2Proof.Machine
end

section
/-! SUPPORT. The Report Unit's requests, the reads, and the requests that enqueue line work. -/

namespace Sys2Proof.Machine

/-! ### Words of counts and ranges -/

theorem outside_one (hi n : Nat) : outside 1 hi n = decide (n = 0 ∨ hi < n) := by
  rw [Bool.eq_iff_iff, outside_iff, decide_eq_true_iff]
  omega

theorem clampTo_one {hi : Nat} (h : 1 ≤ hi) (n : Nat) : clampTo 1 hi n = max 1 (min hi n) := clampTo_eq h

theorem notFitted_iff {s : State} {h : Handed} : s.unfitted h = true ↔ s.notFitted h.selector := by
  rw [State.unfitted, State.fitted, Bool.not_eq_true', decide_eq_false_iff_not, Nat.not_le]
  exact Iff.rfl

/-! ### BIND_QUEUE -/

theorem binding?_isNone {n : Nat} : (binding? n).isNone = true ↔ 3 < n := by
  match n with
  | 0 | 1 | 2 | 3 => simp [binding?]
  | n + 4 => simp [binding?]

/-- The channel word 0 is NONE (R186). -/
theorem binding?_eq_some_none {n : Nat} : binding? n = some none ↔ n = 0 := by
  match n with
  | 0 | 1 | 2 | 3 => simp [binding?]
  | n + 4 => simp [binding?]

theorem binding?_of_le {n : Nat} (h : n ≤ 3) : ∃ c, binding? n = some c := by
  cases e : binding? n with
  | some c => exact ⟨c, rfl⟩
  | none =>
    have hout : 3 < n := binding?_isNone.mp (by rw [e]; rfl)
    omega

section BindQueue

variable {s : State} {h : Handed}

theorem bindQueue_notClaimed (hh : s.holds h.channel .tables = false) :
    s.bindQueue h = s.answer h (.refusal .notClaimed) := by
  simp only [State.bindQueue, hh]

/-- With encoded words the binding is out of range when it makes NONE a home (R157). -/
theorem bindQueue_encoded {q : RQ} {c : Option Channel} (hh : s.holds h.channel .tables = true)
    (hq : queue? (h.word 0) = some q) (hc : binding? (h.word 1) = some c) (h2 : h.word 2 ≤ 1) : s.bindQueue h =
    if h.word 1 = 0 ∧ h.word 2 = 1 then s.answer h (.refusal .outOfRange)
    else ((s.bind q c).makeHome q c (decide (h.word 2 = 1))).answer h
      (.ok [word (ownerCode (PerQueue.get s.queues q).binding)]) := by
  have hnone : c = none ↔ h.word 1 = 0 := by
    rw [← binding?_eq_some_none, hc, Option.some.injEq]
  simp only [State.bindQueue, hh, hq, hc, onOff?_of_le_one h2, decide_eq_true_eq, hnone]

theorem bindQueue_undefined (hh : s.holds h.channel .tables = true) (ho : 3 < h.word 0 ∨ 3 < h.word 1 ∨ 1 < h.word 2) :
    s.bindQueue h = s.answer h (.refusal .outOfRange) := by
  unfold State.bindQueue
  rw [hh]
  split
  next e => cases e
  next q c home _ hq hc hb =>
    obtain h0 | h1 | h2 := ho
    · have := queue?_isNone.mpr h0; rw [hq] at this; cases this
    · have := binding?_isNone.mpr h1; rw [hc] at this; cases this
    · have := onOff?_isNone.mpr h2; rw [hb] at this; cases this
  next => rfl

end BindQueue

/-! ### READ_QUEUE -/

theorem notBound_iff {q : ReportQueue} {ch : Channel} : q.notBound ch = true ↔ ∃ d, q.binding = some d ∧ d ≠ ch := by
  rw [ReportQueue.notBound, Bool.and_eq_true, decide_eq_true_iff, decide_eq_true_iff]
  cases q.binding with
  | none => simp
  | some d => simp

theorem readReply_eq (q : ReportQueue) (count : Nat) : q.readReply count =
    { status := .accepted, clamped := decide (count = 0 ∨ 16 < count), overflow := q.overflow
      requested := 2 + 10 * max 1 (min 16 count)
      data := word (min (max 1 (min 16 count)) q.records.length) ::
        word (q.records.length - max 1 (min 16 count)) ::
          (q.records.take (max 1 (min 16 count))).flatMap Record.words } := by
  simp only [ReportQueue.readReply, outside_one, clampTo_one (hi := 16) (by decide), List.length_take, List.length_drop,
    List.cons_append, List.nil_append]

/-- Settles O26: an undefined word of a binding is out of range, and a read is served by the binding it finds. -/
theorem queuesAreBoundAndRead : Obligations.QueuesAreBoundAndRead := by
  refine ⟨?bind, ?read⟩
  case bind =>
    intro s ch h hs
    have hch : h.channel = ch := offers_channel hs
    have holds_iff : (s.taken ch .bindQueue).holds h.channel .tables = true ↔ s.tablesClaim.owner = some ch := by
      rw [State.holds, decide_eq_true_iff, hch]
      exact Iff.rfl
    refine ⟨_, serve_offers hs fun h s => s.bindQueue h, fun hc => ?notClaimed, fun hc => ⟨fun ho => ?outOfRange,
      fun ho => ?bound⟩⟩
    case notClaimed =>
      exact bindQueue_notClaimed (Bool.eq_false_iff.mpr (mt holds_iff.mp hc))
    case outOfRange =>
      have hh := holds_iff.mpr (not_not.mp hc)
      by_cases hu : 3 < h.word 0 ∨ 3 < h.word 1 ∨ 1 < h.word 2
      · exact bindQueue_undefined hh hu
      · obtain ⟨q, hq⟩ := queue?_of_le (n := h.word 0) (by omega)
        obtain ⟨c, hc⟩ := binding?_of_le (n := h.word 1) (by omega)
        exact (bindQueue_encoded hh hq hc (by omega)).trans (if_pos (by omega))
    case bound =>
      have hh := holds_iff.mpr (not_not.mp hc)
      simp only [not_or, Nat.not_lt] at ho
      obtain ⟨h0, h1, h2, hhome⟩ := ho
      obtain ⟨q, hq⟩ := queue?_of_le h0
      obtain ⟨c, hc⟩ := binding?_of_le h1
      refine ⟨q, c, hq, hc, ?_⟩
      rw [bindQueue_encoded hh hq hc h2, if_neg hhome]
      cases c with
      | none => rfl
      | some d =>
        rw [State.makeHome]
        by_cases hw : h.word 2 = 1
        · simp only [hw, decide_true, if_true]
          rfl
        · simp only [hw, decide_false, Bool.false_eq_true, if_false]
          rfl
  case read =>
    intro s ch h hs n refusal
    have hch : h.channel = ch := offers_channel hs
    have hexec : exec (.readQueue ch) s = .next ((s.taken ch .readQueue).readQueue h) :=
      serve_offers hs fun h s => s.readQueue h
    have hcount : clampTo 1 16 (h.word 1) = n := clampTo_one (by decide) _
    refine ⟨fun ho => ?outOfRange, fun q hq => ⟨fun hb => ?notBound, fun hb => ?read⟩⟩
    case outOfRange =>
      have hnone : queue? (h.word 0) = none := Option.isNone_iff_eq_none.mp (queue?_isNone.mpr ho)
      rw [hexec, State.readQueue, hnone, hcount]
      rfl
    case notBound =>
      have hnot : (PerQueue.get (s.taken ch .readQueue).queues q).notBound h.channel = true := by
        rw [hch]; exact notBound_iff.mpr hb
      rw [hexec, State.readQueue, hq, hcount]
      exact congrArg Host.Outcome.next (if_pos hnot)
    case read =>
      have hnot : ¬ (PerQueue.get (s.taken ch .readQueue).queues q).notBound h.channel = true := by
        rw [hch, notBound_iff]
        rintro ⟨d, hd, hne⟩
        obtain e | e := hb
        · cases hd.symm.trans e
        · exact hne (Option.some.inj (hd.symm.trans e))
      rw [hexec, State.readQueue, hq, hcount]
      refine congrArg Host.Outcome.next ((if_neg hnot).trans ?_)
      rw [readReply_eq]
      rfl

/-! ### Ranges and pairs that are read -/

/-- The housings that a read of a range names (R182). -/
theorem readRange_eq (first count : Nat) : readRange first count =
    (List.range (min 193 (first + max 1 (min 16 count)) - first)).map (· + first) := by
  have hlength : min 192 (first + max 1 (min 16 count) - 1) + 1 - first =
      min 193 (first + max 1 (min 16 count)) - first := by omega
  rw [readRange, housingRange, clampTo_one (by decide), hlength]

theorem evaluating_iff {s : State} {p : Pair} :
    s.evaluating p = true ↔ ∃ c, s.current = some c ∧ c.work.pair = p ∧ c.state = .evaluate := by
  unfold State.evaluating
  cases s.current with
  | none => simp
  | some c => simp

theorem watchPointsReply_eq (s : State) (h : Handed) : s.watchPointsReply h =
    { status := .accepted, clamped := decide (h.word 1 = 0 ∨ 16 < h.word 1), overflow := false
      requested := 1 + 10 * max 1 (min 16 (h.word 1))
      data := word (readRange (h.word 0) (h.word 1)).length ::
        (readRange (h.word 0) (h.word 1)).flatMap fun i => (s.wp h.selector i).words i } := by
  simp only [State.watchPointsReply, outside_one, clampTo_one (hi := 16) (by decide)]

/-- The request of an offered handing over is the one offered. -/
theorem offers_request {s : State} {ch : Channel} {r : Request} {h : Handed} (hs : s.offers ch r h) : h.request = r :=
  found_request hs.2

section ReadPair

variable {s : State} {h : Handed}

theorem readPair_deferred (he : ∃ c, s.current = some c ∧ c.work.pair = h.selector ∧ c.state = .evaluate) :
    s.readPair h = { s with deferred := s.deferred ++ [h] } := if_pos (evaluating_iff.mpr he)

theorem readPair_answered (he : ¬ ∃ c, s.current = some c ∧ c.work.pair = h.selector ∧ c.state = .evaluate) :
    s.readPair h = s.answer h (s.pairReply h) := if_neg (mt evaluating_iff.mp he)

theorem readWatchPoints_outside (ho : s.notFitted h.selector ∨ 192 < h.word 0) : s.readWatchPoints h =
    s.answer h (.refusedRead .outOfRange (1 + 10 * max 1 (min 16 (h.word 1)))) := by
  rw [State.readWatchPoints, clampTo_one (by decide)]
  exact if_pos (by rw [Bool.or_eq_true, notFitted_iff, notHousing_iff]; exact ho)

theorem readWatchPoints_inside (hf : ¬ s.notFitted h.selector) (hn : h.word 0 ≤ 192) :
    s.readWatchPoints h = s.readPair h :=
  if_neg (by
    rw [Bool.or_eq_true, notFitted_iff, notHousing_iff]
    rintro (hf' | hn')
    · exact hf hf'
    · omega)

theorem readVerdict_outside (ho : s.notFitted h.selector) : s.readVerdict h = s.answer h (.refusal .outOfRange) :=
  if_pos (notFitted_iff.mpr ho)

theorem readVerdict_inside (hf : ¬ s.notFitted h.selector) : s.readVerdict h = s.readPair h :=
  if_neg (mt notFitted_iff.mp hf)

theorem pairReply_watchPoints (hr : h.request = .readWatchPoints) : s.pairReply h = s.watchPointsReply h :=
  if_neg (by rw [hr]; decide)

theorem pairReply_verdict (hr : h.request = .readVerdict) : s.pairReply h = s.verdictReply h := if_pos hr

end ReadPair

/-- Settles O27, by the range test and then by whether the pair is being evaluated. -/
theorem pairReadsAnswerOrDefer : Obligations.PairReadsAnswerOrDefer := by
  refine ⟨?watchPoints, ?verdict⟩
  case watchPoints =>
    intro s ch h hs p first n housings
    have hexec : exec (.readWatchPoints ch) s = .next ((s.taken ch .readWatchPoints).readWatchPoints h) :=
      serve_offers hs fun h s => s.readWatchPoints h
    refine ⟨fun ho => ?outside, fun hf hn he => ?deferred, fun hf hn he => ?answered⟩
    case outside =>
      rw [hexec, readWatchPoints_outside (s := s.taken ch .readWatchPoints) ho]
      rfl
    case deferred =>
      rw [hexec, readWatchPoints_inside (s := s.taken ch .readWatchPoints) hf hn,
        readPair_deferred (s := s.taken ch .readWatchPoints) he]
      rfl
    case answered =>
      rw [hexec, readWatchPoints_inside (s := s.taken ch .readWatchPoints) hf hn,
        readPair_answered (s := s.taken ch .readWatchPoints) he, pairReply_watchPoints (offers_request hs),
        watchPointsReply_eq, readRange_eq]
      rfl
  case verdict =>
    intro s ch h hs p
    have hexec : exec (.readVerdict ch) s = .next ((s.taken ch .readVerdict).readVerdict h) :=
      serve_offers hs fun h s => s.readVerdict h
    refine ⟨fun ho => ?outside, fun hf he => ?deferred, fun hf he => ?answered⟩
    case outside =>
      rw [hexec, readVerdict_outside (s := s.taken ch .readVerdict) ho]
      rfl
    case deferred =>
      rw [hexec, readVerdict_inside (s := s.taken ch .readVerdict) hf,
        readPair_deferred (s := s.taken ch .readVerdict) he]
      rfl
    case answered =>
      rw [hexec, readVerdict_inside (s := s.taken ch .readVerdict) hf,
        readPair_answered (s := s.taken ch .readVerdict) he, pairReply_verdict (offers_request hs)]
      rfl

/-! ### The reads that answer at once -/

theorem housingReply_eq (s : State) (h : Handed) : s.housingReply h =
    { status := .accepted, clamped := decide (h.word 1 = 0 ∨ 16 < h.word 1), overflow := false
      requested := 1 + 3 * max 1 (min 16 (h.word 1))
      data := word (readRange (h.word 0) (h.word 1)).length ::
        (readRange (h.word 0) (h.word 1)).flatMap s.housingWords } := by
  simp only [State.housingReply, outside_one, clampTo_one (hi := 16) (by decide)]

theorem wordsFor_eq (c : Claim) (ch : Channel) : c.wordsFor ch =
    [word (ownerCode c.owner), word (c.since.toNat / 65536), word c.since.toNat,
      if c.owner = some ch then c.tag else 0] := by
  simp only [Claim.wordsFor, timeWords, Claim.ownedBy, decide_eq_true_eq, List.cons_append, List.nil_append]

/-- Settles O28: each read answers the words its block holds. -/
theorem readsReturnWhatIsHeld : Obligations.ReadsReturnWhatIsHeld := by
  refine ⟨⟨fun s ch h hs => ?alarms, fun s ch h hs => ?lineState, fun s ch h hs => ?time, ?housing⟩, ?claims⟩
  case alarms => exact serve_offers hs fun h s => s.answer h (.ok [s.alarms.word])
  case lineState =>
    refine (serve_offers hs fun h s => s.answer h (.ok s.lineStateWords)).trans ?_
    refine congrArg (fun l => Host.Outcome.next (s.served ch .readLineState h (.ok l))) ?_
    change s.lineStateWords = _
    unfold State.lineStateWords State.busyPair
    cases s.current <;> cases s.position <;> rfl
  case time => exact serve_offers hs fun h s => s.answer h (.ok (timeWords s.epoch))
  case housing =>
    intro s ch h hs first n housings entry
    have hexec : exec (.readHousing ch) s = .next ((s.taken ch .readHousing).readHousing h) :=
      serve_offers hs fun h s => s.readHousing h
    refine ⟨fun ho => ?outside, fun hin => ?answered⟩
    case outside =>
      rw [hexec, State.readHousing, if_pos (notHousing_iff.mpr ho), clampTo_one (by decide)]
      rfl
    case answered =>
      rw [hexec, State.readHousing, if_neg (by rw [notHousing_iff]; omega), housingReply_eq, readRange_eq]
      rfl
  case claims =>
    intro s ch h hs record
    refine (serve_offers hs fun h s =>
      s.answer h (.ok (s.lineClaim.wordsFor ch ++ s.tablesClaim.wordsFor ch))).trans ?_
    rw [wordsFor_eq, wordsFor_eq]
    rfl

/-! ### START_SWEEP and SEND_COMMAND -/

theorem sweepKind?_isNone {n : Nat} : (sweepKind? n).isNone = true ↔ 1 < n := by
  match n with
  | 0 | 1 => simp [sweepKind?]
  | n + 2 => simp [sweepKind?]

theorem sweepKind?_baseline {n : Nat} : sweepKind? n = some .baseline ↔ n = 1 := by
  match n with
  | 0 | 1 => simp [sweepKind?]
  | n + 2 => simp [sweepKind?]

theorem operation?_isNone {n : Nat} : (operation? n).isNone = true ↔ n < 1 ∨ 4 < n := by
  match n with
  | 0 | 1 | 2 | 3 | 4 => simp [operation?]
  | n + 5 => simp [operation?]

theorem lacksLine_taken {s : State} {ch : Channel} {r : Request} {h : Handed} (hc : h.channel = ch) :
    (!(s.taken ch r).holds h.channel .line) = true ↔ s.lineClaim.owner ≠ some ch := by
  rw [Bool.not_eq_true', State.holds, decide_eq_false_iff_not, hc]
  exact Iff.rfl

theorem lacksSweepClaim_taken {s : State} {ch : Channel} {r : Request} {h : Handed} (hc : h.channel = ch) :
    (s.taken ch r).lacksSweepClaim h = true ↔
      s.lineClaim.owner ≠ some ch ∨ h.word 0 = 1 ∧ s.tablesClaim.owner ≠ some ch := by
  rw [State.lacksSweepClaim, Bool.or_eq_true, Bool.and_eq_true, lacksLine_taken hc, decide_eq_true_iff,
    sweepKind?_baseline]
  exact or_congr_right (and_congr_right fun _ => lacksTables_taken hc)

theorem queueFull_taken {s : State} {ch : Channel} {r : Request} :
    (s.taken ch r).queueFull = true ↔ 16 ≤ s.workQueue.length := decide_eq_true_iff

/-- An enqueued piece of work carries the next free tag, which the reply gives and the counter passes (R43). -/
theorem enqueued_eq (s : State) (ch : Channel) (r : Request) (h : Handed) (p : Pair) (kind : WorkKind) (clamped : Bool) :
    ∃ tag, (∃ k : Nat, tag = s.tagCounter + BitVec.ofNat 8 k ∧ ∀ j < k, s.tagCounter + BitVec.ofNat 8 j ∈ s.heldTags) ∧
      (s.heldTags.length < 256 → tag ∉ s.heldTags) ∧
      ((s.taken ch r).enqueue (.channel ch) p kind).answer h (.okClamped clamped [word (s.taken ch r).nextTag.toNat]) =
        { s.served ch r h (.okClamped clamped [word tag.toNat]) with
          workQueue := s.workQueue ++ [⟨tag, .channel ch, p, kind⟩], tagCounter := tag + 1 } :=
  have hfree := nextTag_nextFree s
  ⟨s.nextTag, hfree.1, hfree.2, rfl⟩

/-- Settles O29: the tests of both requests say their conditions, and both enqueue with the next free tag. -/
theorem lineWorkIsEnqueuedWithFreeTag : Obligations.LineWorkIsEnqueuedWithFreeTag := by
  intro s ch c r h hc hs p entered
  have hch : h.channel = ch := offers_channel hs
  simp only [List.mem_cons, List.not_mem_nil, or_false, Prod.mk.injEq] at hc
  obtain ⟨rfl, rfl⟩ | ⟨rfl, rfl⟩ := hc
  · obtain ⟨t, ht, hj⟩ := judged_intro (s := s) (serve_offers hs fun h s => s.startSweep h)
      (D := fun t => ∃ kind, sweepKind? (h.word 0) = some kind ∧
        entered t (.sweep kind (max 1 (min 1024 (h.word 1)))) (decide (h.word 1 = 0 ∨ 1024 < h.word 1)))
      (checks := [(s.lineClaim.owner ≠ some ch ∨ h.word 0 = 1 ∧ s.tablesClaim.owner ≠ some ch, .notClaimed),
         (s.notFitted p ∨ 1 < h.word 0, .outOfRange), (16 ≤ s.workQueue.length, .queueFull)])
      (.cons ⟨lacksSweepClaim_taken hch, rfl⟩ (.cons ⟨by
        rw [Bool.or_eq_true, unfitted_taken, sweepKind?_isNone], rfl⟩ (.cons ⟨queueFull_taken, rfl⟩ .nil)))
      fun passed => by
        have hrange := passed _ (.tail _ (.head _))
        simp only [not_or, ← sweepKind?_isNone] at hrange
        obtain ⟨kind, hk⟩ := Option.isSome_iff_exists.mp (Option.isNone_eq_false_iff.mp (Bool.eq_false_iff.mpr hrange.2))
        refine ⟨kind, hk, ?_⟩
        rw [hk, hch, clampTo_one (by decide), outside_one]
        exact enqueued_eq s ch .startSweep h p _ _
    exact ⟨t, ht, fun _ => hj, nofun⟩
  · obtain ⟨t, ht, hj⟩ := judged_intro (s := s) (serve_offers hs fun h s => s.sendCommand h)
      (D := fun t => ∃ op, operation? (h.word 1) = some op ∧
          entered t (.command (h.word 0) op (max 1 (min 4 (h.word 2)))) (decide (h.word 2 = 0 ∨ 4 < h.word 2)))
      (checks := [(s.lineClaim.owner ≠ some ch, .notClaimed),
         (s.notFitted p ∨ 192 < h.word 0 ∨ h.word 1 < 1 ∨ 4 < h.word 1, .outOfRange),
         (16 ≤ s.workQueue.length, .queueFull)])
      (.cons ⟨lacksLine_taken hch, rfl⟩ (.cons ⟨by
        rw [Bool.or_eq_true, Bool.or_eq_true, unfitted_taken, notHousing_iff, operation?_isNone, or_assoc], rfl⟩
        (.cons ⟨queueFull_taken, rfl⟩ .nil)))
      fun passed => by
        have hrange := passed _ (.tail _ (.head _))
        rw [not_or, not_or, ← operation?_isNone] at hrange
        obtain ⟨op, hk⟩ := Option.isSome_iff_exists.mp (Option.isNone_eq_false_iff.mp (Bool.eq_false_iff.mpr hrange.2.2))
        refine ⟨op, hk, ?_⟩
        rw [hk, hch, clampTo_one (by decide), outside_one]
        exact enqueued_eq s ch .sendCommand h p _ _
    exact ⟨t, ht, nofun, fun _ => hj⟩

end Sys2Proof.Machine
end

section
/-! SUPPORT. How line work ends: the record, the rest of the line side, the pump state and the Localiser's answer. -/

namespace Sys2Proof.Machine

/-! ### The record of a piece of work -/

theorem postWork_eq (s : State) (w : Work) (b : RecordBody) : s.postWork w b = s.post (s.workQueueOf w) b := by
  unfold State.postWork State.workQueueOf
  cases w.origin <;> rfl

/-! ### The Localiser's answer -/

/-- The isolation status that the outcome of an automatic command leaves (R110). -/
def autoStatus (o : WorkOutcome) (status : Option Word) : IsolationStatus :=
  if o = .cancelled then .cancelled
  else if o = .done ∧ status.map statusPump = some .secondary then .swapped
  else .quarantined

/-- The outcome of an automatic command neither cures nor cancels (R111). -/
def failsToCure (o : WorkOutcome) (status : Option Word) : Prop :=
  o ≠ .cancelled ∧ ¬ (o = .done ∧ status.map statusPump = some .secondary)

section AutoOutcome

variable {s : State} {p : Pair} {n : Nat} {o : WorkOutcome} {status : Option Word}

theorem autoOutcome_fails (h : failsToCure o status) : s.autoOutcome p n o status =
    (s.markQuarantine p n (s.policy p).recoveryDepth .auto).setStatus p .quarantined := by
  rw [State.autoOutcome, if_neg h.1, if_neg h.2]

theorem autoOutcome_ends (h : ¬ failsToCure o status) :
    s.autoOutcome p n o status = s.setStatus p (autoStatus o status) := by
  unfold State.autoOutcome autoStatus
  by_cases hc : o = .cancelled
  · rw [if_pos hc, if_pos hc]
  · have hd : o = .done ∧ status.map statusPump = some .secondary := by
      by_contra hd
      exact h ⟨hc, hd⟩
    rw [if_neg hc, if_neg hc, if_pos hd, if_pos hd]

theorem autoStatus_of_fails (h : failsToCure o status) : autoStatus o status = .quarantined := by
  rw [autoStatus, if_neg h.1, if_neg h.2]

/-- A mark touches watch points and report queues alone. -/
theorem markQuarantine_frame (s : State) (p : Pair) (n d : Nat) (origin : Origin) : s.markQuarantine p n d origin =
    { s with watchPoints := (s.markQuarantine p n d origin).watchPoints
             queues := (s.markQuarantine p n d origin).queues } := by
  unfold State.markQuarantine
  split <;> rfl

/-- The Verdict Registers after the Localiser's answer: the status of the pair (R110). -/
theorem verdicts_autoOutcome :
    (s.autoOutcome p n o status).verdicts = (s.setStatus p (autoStatus o status)).verdicts := by
  by_cases h : failsToCure o status
  · rw [autoOutcome_fails h, autoStatus_of_fails h, markQuarantine_frame]
    rfl
  · rw [autoOutcome_ends h]

/-- The Localiser's answer touches watch points, report queues and Verdict Registers alone. -/
theorem autoOutcome_frame : s.autoOutcome p n o status = { s with
    watchPoints := (s.autoOutcome p n o status).watchPoints, queues := (s.autoOutcome p n o status).queues
    verdicts := (s.autoOutcome p n o status).verdicts } := by
  by_cases h : failsToCure o status
  · rw [autoOutcome_fails h, markQuarantine_frame]
    rfl
  · rw [autoOutcome_ends h]
    rfl

/-- A watch point marked at a depth: a mark that changes is stamped (R108). -/
def WatchPoint.marked (w : WatchPoint) (depth : Nat) (now : Time) : WatchPoint :=
  if w.quarantine = some depth then w else { w with quarantine := some depth, updated := now }

theorem wp_markQuarantine_same (s : State) (p : Pair) (n d : Nat) (origin : Origin) :
    (s.markQuarantine p n d origin).wp p n = (s.wp p n).marked d s.epoch := by
  unfold State.markQuarantine WatchPoint.marked
  split
  · rfl
  · exact wp_setWp_same ..

theorem wp_markQuarantine_other (s : State) {p q : Pair} {n i d : Nat} {origin : Origin} (hn : n ≤ 192) (hi : i ≤ 192)
    (hne : q ≠ p ∨ i ≠ n) : (s.markQuarantine p n d origin).wp q i = s.wp q i := by
  unfold State.markQuarantine
  split
  · rfl
  · exact wp_setWp_elsewhere s _ hn hi hne

theorem wp_autoOutcome_fails (h : failsToCure o status) :
    (s.autoOutcome p n o status).wp p n = (s.wp p n).marked (s.policy p).recoveryDepth s.epoch := by
  rw [autoOutcome_fails h]
  exact wp_markQuarantine_same ..

theorem wp_autoOutcome_ends (h : ¬ failsToCure o status) (q : Pair) (i : Nat) :
    (s.autoOutcome p n o status).wp q i = s.wp q i := by
  rw [autoOutcome_ends h]
  rfl

theorem wp_autoOutcome_other (hn : n ≤ 192) {q : Pair} {i : Nat} (hi : i ≤ 192) (hne : q ≠ p ∨ i ≠ n) :
    (s.autoOutcome p n o status).wp q i = s.wp q i := by
  by_cases h : failsToCure o status
  · rw [autoOutcome_fails h]
    exact wp_markQuarantine_other s hn hi hne
  · exact wp_autoOutcome_ends h q i

/-- The records of the Localiser's answer depend on the queues, the policy, the time and the mark that stands. -/
theorem queues_autoOutcome_congr {t : State} (hq : t.queues = s.queues) (hp : t.policies = s.policies)
    (he : t.epoch = s.epoch) (hm : (t.wp p n).quarantine = (s.wp p n).quarantine) :
    (t.autoOutcome p n o status).queues = (s.autoOutcome p n o status).queues := by
  have hpolicy : t.policy p = s.policy p := by unfold State.policy; rw [hp]
  by_cases h : failsToCure o status
  · rw [autoOutcome_fails h, autoOutcome_fails h, hpolicy]
    simp only [State.queues_setStatus]
    unfold State.markQuarantine
    rw [hm]
    split
    · exact hq
    · simp only [State.postVerdict, State.post]
      change PerQueue.set t.queues (t.policy p).verdictQueue
          ((PerQueue.get t.queues (t.policy p).verdictQueue).accept ⟨_, t.epoch⟩) =
        PerQueue.set s.queues (s.policy p).verdictQueue
          ((PerQueue.get s.queues (s.policy p).verdictQueue).accept ⟨_, s.epoch⟩)
      rw [hq, he, hpolicy]
  · rw [autoOutcome_ends h, autoOutcome_ends h]
    exact hq

end AutoOutcome

/-! ### The end of a command -/

/-- The Localiser's answer, given for automatic work alone (R52). -/
def State.reported (s : State) (c : Current) (n : Nat) (o : WorkOutcome) (status : Option Word) : State :=
  if c.work.origin = .auto then s.autoOutcome c.work.pair n o status else s

/-- The pump state of the command's watch point written, as its outcome says (R135, R136). -/
def State.pumped (s : State) (c : Current) (n : Nat) (op : Operation) (o : WorkOutcome) (status : Option Word) : State :=
  s.writePump c.work.pair n (pumpAfter op o c.state s.cmu.attempt status)

section Command

variable {s : State} {c : Current} {n : Nat} {op : Operation} {o : WorkOutcome} {status : Option Word}

theorem reported_auto (h : c.work.origin = .auto) :
    s.reported c n o status = s.autoOutcome c.work.pair n o status := if_pos h

theorem reported_channel (h : c.work.origin ≠ .auto) : s.reported c n o status = s := if_neg h

theorem reported_frame : s.reported c n o status = { s with
    watchPoints := (s.reported c n o status).watchPoints, queues := (s.reported c n o status).queues
    verdicts := (s.reported c n o status).verdicts } := by
  by_cases h : c.work.origin = .auto
  · rw [reported_auto h]; exact autoOutcome_frame
  · rw [reported_channel h]

theorem writePump_frame (s : State) (p : Pair) (n : Nat) (v : Option PumpState) :
    s.writePump p n v = { s with watchPoints := (s.writePump p n v).watchPoints } := by
  cases v <;> rfl

theorem wp_writePump_same (s : State) (p : Pair) (n : Nat) (v : Option PumpState) :
    (s.writePump p n v).wp p n = { s.wp p n with pump := v.getD (s.wp p n).pump } := by
  cases v with
  | none => rfl
  | some v => exact wp_setWp_same ..

theorem wp_writePump_other (s : State) {p q : Pair} {n i : Nat} (v : Option PumpState) (hn : n ≤ 192) (hi : i ≤ 192)
    (hne : q ≠ p ∨ i ≠ n) : (s.writePump p n v).wp q i = s.wp q i := by
  cases v with
  | none => rfl
  | some v => exact wp_setWp_elsewhere s _ hn hi hne

/-- What comes of a command that ends, before the return to IDLE. -/
def State.concluded (s : State) (c : Current) (n : Nat) (op : Operation) (o : WorkOutcome) (status : Option Word)
    (telemetry : Option Telemetry) : State :=
  ((s.pumped c n op o status).post (s.workQueueOf c.work)
    (.commandDone c.work.tag c.work.origin c.work.pair n op o s.cmu.attempt status telemetry)).reported c n o status

theorem commandEnds_eq (telemetry : Option Telemetry) :
    s.commandEnds c n op o status telemetry = (s.concluded c n op o status telemetry).idle := by
  have hqueue : (s.pumped c n op o status).workQueueOf c.work = s.workQueueOf c.work := by
    rw [State.pumped, writePump_frame]
    unfold State.workQueueOf
    cases c.work.origin <;> rfl
  rw [State.concluded, ← hqueue, ← postWork_eq]
  rfl

theorem concluded_frame (telemetry : Option Telemetry) : s.concluded c n op o status telemetry = { s with
    watchPoints := (s.concluded c n op o status telemetry).watchPoints
    queues := (s.concluded c n op o status telemetry).queues
    verdicts := (s.concluded c n op o status telemetry).verdicts } := by
  have hpump : s.pumped c n op o status = { s with watchPoints := (s.pumped c n op o status).watchPoints } :=
    writePump_frame ..
  unfold State.concluded
  generalize s.pumped c n op o status = u at *
  have hframe := reported_frame (s := u.post (s.workQueueOf c.work)
    (.commandDone c.work.tag c.work.origin c.work.pair n op o s.cmu.attempt status telemetry))
    (c := c) (n := n) (o := o) (status := status)
  generalize State.reported (u.post _ _) c n o status = t at *
  rw [hframe, hpump]
  rfl

theorem verdicts_reported_congr {t : State} (h : t.verdicts = s.verdicts) :
    (t.reported c n o status).verdicts = (s.reported c n o status).verdicts := by
  by_cases hc : c.work.origin = .auto
  · rw [reported_auto hc, reported_auto hc, verdicts_autoOutcome, verdicts_autoOutcome]
    unfold State.setStatus State.setVerdict State.verdict
    rw [h]
  · rw [reported_channel hc, reported_channel hc, h]

theorem queues_reported_congr {t : State} (hq : t.queues = s.queues) (hp : t.policies = s.policies)
    (he : t.epoch = s.epoch) (hm : (t.wp c.work.pair n).quarantine = (s.wp c.work.pair n).quarantine) :
    (t.reported c n o status).queues = (s.reported c n o status).queues := by
  by_cases hc : c.work.origin = .auto
  · rw [reported_auto hc, reported_auto hc]
    exact queues_autoOutcome_congr hq hp he hm
  · rw [reported_channel hc, reported_channel hc, hq]

theorem verdicts_commandEnds (telemetry : Option Telemetry) :
    (s.commandEnds c n op o status telemetry).verdicts = (s.reported c n o status).verdicts := by
  rw [commandEnds_eq]
  refine verdicts_reported_congr ?_
  rw [State.pumped, writePump_frame]
  rfl

theorem queues_commandEnds (telemetry : Option Telemetry) : (s.commandEnds c n op o status telemetry).queues =
    ((s.post (s.workQueueOf c.work)
      (.commandDone c.work.tag c.work.origin c.work.pair n op o s.cmu.attempt status telemetry)).reported c n o
        status).queues := by
  have hpump := writePump_frame s c.work.pair n (pumpAfter op o c.state s.cmu.attempt status)
  have hmark : ((s.pumped c n op o status).wp c.work.pair n).quarantine = (s.wp c.work.pair n).quarantine := by
    rw [State.pumped, wp_writePump_same]
  rw [commandEnds_eq]
  refine queues_reported_congr ?_ ?_ ?_ hmark <;> (rw [State.pumped, hpump]; rfl)

theorem commandEnds_frame (telemetry : Option Telemetry) : s.commandEnds c n op o status telemetry = { s with
    current := none, allocation := [], chipTimer := none, settleTimer := none, cmu := .reset, intervals := []
    evaluation := none, queues := (s.commandEnds c n op o status telemetry).queues
    watchPoints := (s.commandEnds c n op o status telemetry).watchPoints
    verdicts := (s.commandEnds c n op o status telemetry).verdicts } := by
  rw [commandEnds_eq]
  have hframe := concluded_frame (s := s) (c := c) (n := n) (op := op) (o := o) (status := status) telemetry
  generalize s.concluded c n op o status telemetry = t at *
  rw [hframe]
  rfl

/-- The watch point of a command that has ended: its pump state by the outcome, its mark by the Localiser's answer. -/
theorem wp_commandEnds_same (telemetry : Option Telemetry) :
    (s.commandEnds c n op o status telemetry).wp c.work.pair n = { s.wp c.work.pair n with
      pump := (pumpAfter op o c.state s.cmu.attempt status).getD (s.wp c.work.pair n).pump
      quarantine := ((s.reported c n o status).wp c.work.pair n).quarantine
      updated := ((s.reported c n o status).wp c.work.pair n).updated } := by
  have hpump : (s.pumped c n op o status).wp c.work.pair n = _ := wp_writePump_same ..
  have hframe : s.pumped c n op o status = _ := writePump_frame ..
  have hpolicy : (s.pumped c n op o status).policy c.work.pair = s.policy c.work.pair := by rw [hframe]; rfl
  have hepoch : (s.pumped c n op o status).epoch = s.epoch := by rw [hframe]
  rw [commandEnds_eq]
  change (s.concluded c n op o status telemetry).wp c.work.pair n = _
  unfold State.concluded
  by_cases hc : c.work.origin = .auto
  · rw [reported_auto hc, reported_auto hc]
    by_cases h : failsToCure o status
    · rw [wp_autoOutcome_fails h, wp_autoOutcome_fails h]
      change ((s.pumped c n op o status).wp c.work.pair n).marked
        ((s.pumped c n op o status).policy c.work.pair).recoveryDepth (s.pumped c n op o status).epoch = _
      rw [hpump, hpolicy, hepoch]
      unfold WatchPoint.marked
      split <;> rfl
    · rw [wp_autoOutcome_ends h, wp_autoOutcome_ends h]
      exact hpump
  · rw [reported_channel hc, reported_channel hc]
    exact hpump

theorem wp_commandEnds_other (telemetry : Option Telemetry) (hn : n ≤ 192) {q : Pair} {i : Nat} (hi : i ≤ 192)
    (hne : q ≠ c.work.pair ∨ i ≠ n) : (s.commandEnds c n op o status telemetry).wp q i = s.wp q i := by
  have hpump : (s.pumped c n op o status).wp q i = s.wp q i := wp_writePump_other s _ hn hi hne
  rw [commandEnds_eq]
  change (s.concluded c n op o status telemetry).wp q i = _
  unfold State.concluded
  by_cases hc : c.work.origin = .auto
  · rw [reported_auto hc, wp_autoOutcome_other hn hi hne]
    exact hpump
  · rw [reported_channel hc]
    exact hpump

end Command

/-- The record and the rest of a sweep that ends. -/
theorem sweepEnds_frame (s : State) (w : Work) (kind : SweepKind) (o : WorkOutcome) (evaluated saturated : Nat) :
    s.sweepEnds w kind o evaluated saturated = { s with
      current := none, allocation := [], chipTimer := none, settleTimer := none, cmu := .reset, intervals := []
      evaluation := none
      queues := (s.post (s.workQueueOf w)
        (.sweepDone w.tag w.pair kind o evaluated saturated s.clipCount)).queues } := by
  rw [State.sweepEnds, postWork_eq]
  rfl

/-- Settles O38: both ends rest the line side, and post their record before the Localiser answers. -/
theorem endingPostsOneRecordAndRests : Obligations.EndingPostsOneRecordAndRests := by
  refine ⟨fun s w kind o evaluated saturated => ?sweep, ?command, fun s o c hc =>
    ⟨fun kind periods hk => endWork_sweep hc hk o, fun n op attempts hk => endWork_command hc hk o⟩⟩
  case sweep =>
    refine ⟨sweepEnds_rests .., ?_, ?_⟩
    · rw [sweepEnds_frame]
    · rw [sweepEnds_frame]
  case command =>
    intro s c n op o status telemetry t reported
    exact ⟨commandEnds_rests .., verdicts_commandEnds telemetry, queues_commandEnds telemetry,
      commandEnds_frame telemetry⟩

/-! ### The pump state -/

theorem frameSent_iff {st : LineState} {attempt : Nat} : frameSent st attempt = true ↔
    st = .responseWait ∨ st = .busyWait ∨ st = .responseRx ∨ st = .commandTx ∧ 2 ≤ attempt := by
  cases st <;> simp [frameSent]

section Pump

variable {op : Operation} {o : WorkOutcome} {st : LineState} {attempt : Nat} {status : Option Word}

theorem pumpAfter_notBusy (h : op.busy = false) : pumpAfter op o st attempt status = none :=
  if_neg (by rw [h]; decide)

variable (h : op.busy = true)
include h

theorem pumpAfter_answered (ho : o = .done ∨ o = .refusedByRepeater ∨ o = .repeaterFault) :
    pumpAfter op o st attempt status = status.map statusPump := by
  obtain rfl | rfl | rfl := ho <;> rw [pumpAfter, h] <;> rfl

theorem pumpAfter_unknown (ho : o = .mismatch ∨ o = .noResponse ∨ o = .busyTimeout ∨ o = .receiverLos) :
    pumpAfter op o st attempt status = some .unknown := by
  obtain rfl | rfl | rfl | rfl := ho <;> rw [pumpAfter, h] <;> rfl

theorem pumpAfter_selectorFault :
    pumpAfter op .selectorFault st attempt status = if st = .select then none else some .unknown :=
  if_pos h

theorem pumpAfter_cancelled :
    pumpAfter op .cancelled st attempt status = if frameSent st attempt then some .unknown else none :=
  if_pos h

theorem pumpAfter_notStarted (ho : o = .notVisible ∨ o = .unsupported) :
    pumpAfter op o st attempt status = none := by
  obtain rfl | rfl := ho <;> rw [pumpAfter, h] <;> rfl

end Pump

theorem statusPump_eq (w : Word) : statusPump w = if w.getLsbD 7 then .secondary else .primary := by
  have hbit : w.getLsbD 7 = decide (w.toNat / 128 % 2 = 1) := by
    rw [BitVec.getLsbD, Nat.testBit_eq_decide_div_mod_eq]
  rw [statusPump, hbit]
  obtain h | h : w.toNat / 128 % 2 = 0 ∨ w.toNat / 128 % 2 = 1 := by omega
  · rw [if_pos h, h]; rfl
  · rw [h]; rfl

/-- Settles O39: the pump state is read off the outcome, and the Localiser answers in three ways. -/
theorem pumpStateFollowsOutcome : Obligations.PumpStateFollowsOutcome := by
  refine ⟨?pump, ?localiser⟩
  case pump =>
    intro s c n op o status telemetry hn p t
    have hwp : t.wp p n = _ := wp_commandEnds_same telemetry
    have hpump : (t.wp p n).pump = (pumpAfter op o c.state s.cmu.attempt status).getD (s.wp p n).pump := by rw [hwp]
    refine ⟨fun hb => ?_, fun hb => ⟨fun w hw ho => ?_, fun ho => ?_, fun ho => ?_, fun ho => ?_, fun ho => ?_⟩, ?_,
      fun hc => ?_, fun hc => ?_, fun q i hi hne => wp_commandEnds_other telemetry hn hi hne⟩
    · rw [hpump, pumpAfter_notBusy hb, Option.getD_none]
    · rw [hpump, pumpAfter_answered hb ho, hw, Option.map_some, Option.getD_some, statusPump_eq]
    · rw [hpump, pumpAfter_unknown hb ho, Option.getD_some]
    · rw [hpump, ho, pumpAfter_selectorFault hb]
      split <;> rfl
    · rw [hpump, ho, pumpAfter_cancelled hb]
      by_cases hs : frameSent c.state s.cmu.attempt = true
      · rw [if_pos hs, if_pos (frameSent_iff.mp hs), Option.getD_some]
      · rw [if_neg hs, if_neg (mt frameSent_iff.mpr hs), Option.getD_none]
    · rw [hpump, pumpAfter_notStarted hb ho, Option.getD_none]
    · rw [hwp]
    · rw [hwp, reported_channel hc]
      exact ⟨rfl, rfl⟩
    · rw [hwp, reported_auto hc]
      exact ⟨rfl, rfl⟩
  case localiser =>
    intro s p n o status hn t
    refine ⟨fun ho => if_pos ho, fun w ho hw hb => ?swapped, fun hc hfail => ?quarantined⟩
    case swapped =>
      have hsec : o = .done ∧ status.map statusPump = some .secondary := by
        rw [hw, Option.map_some, statusPump_eq, hb]
        exact ⟨ho, rfl⟩
      exact (if_neg (by rw [ho]; decide)).trans (if_pos hsec)
    case quarantined =>
      have hf : failsToCure o status := by
        refine ⟨hc, ?_⟩
        rintro ⟨hd, hs⟩
        obtain hne | rfl | ⟨w, rfl, hb⟩ := hfail
        · exact hne hd
        · cases hs
        · rw [Option.map_some, statusPump_eq, hb] at hs
          cases hs
      have ht : t = _ := autoOutcome_fails hf
      obtain ⟨hmark, hdepth, hframe⟩ := markQuarantine_auto s p hn (s.policy p).recoveryDepth
      have hverdict (q : Pair) : (s.markQuarantine p n (s.policy p).recoveryDepth .auto).verdict q = s.verdict q := by
        rw [hframe]; rfl
      rw [ht]
      refine ⟨?_, fun q hq => ?_, hdepth, hmark, ?_⟩
      · rw [State.setStatus, verdict_setVerdict_same, hverdict]
      · rw [State.setStatus, verdict_setVerdict_other _ _ hq, hverdict]
      · rw [hframe]
        rfl

end Sys2Proof.Machine
end

section
/-! SUPPORT. Work that is cancelled: the current work aborted, an entry taken from its queue. -/

namespace Sys2Proof.Machine

/-! ### Records and registers that follow -/

theorem verdict_setStatus_same (s : State) (p : Pair) (st : IsolationStatus) :
    (s.setStatus p st).verdict p = { s.verdict p with status := st } := verdict_setVerdict_same ..

theorem verdict_setStatus_other (s : State) {p q : Pair} (st : IsolationStatus) (h : q ≠ p) :
    (s.setStatus p st).verdict q = s.verdict q := verdict_setVerdict_other _ _ h

theorem verdict_congr {s t : State} (h : t.verdicts = s.verdicts) (p : Pair) : t.verdict p = s.verdict p := by
  rw [State.verdict, h]; rfl

/-- What one post leaves in the report queues depends on them and on the epoch count alone. -/
theorem queues_post_congr {s t : State} (hq : t.queues = s.queues) (he : t.epoch = s.epoch) (q : RQ) (b : RecordBody) :
    (t.post q b).queues = (s.post q b).queues := queues_postList_congr hq he q [b]

theorem workQueueOf_congr {s t : State} (hh : t.homes = s.homes) (hp : t.policies = s.policies) (w : Work) :
    t.workQueueOf w = s.workQueueOf w := by
  unfold State.workQueueOf State.policy
  rw [hh, hp]

/-! ### The current work aborted -/

/-- The state an abort ends the work from: after SELECT the position is UNKNOWN and the settle timer stopped (R54). -/
def State.letGo (s : State) (c : Current) : State :=
  { s with position := if c.state = .select then none else s.position
           settleTimer := if c.state = .select then none else s.settleTimer }

theorem letGo_select {s : State} {c : Current} (h : c.state = .select) :
    s.letGo c = { s with position := none, settleTimer := none } := by
  rw [State.letGo, if_pos h, if_pos h]

theorem letGo_other {s : State} {c : Current} (h : c.state ≠ .select) : s.letGo c = s := by
  rw [State.letGo, if_neg h, if_neg h]

/-- An abort outside EVALUATE ends the work CANCELLED. -/
theorem abort_of_not_evaluate {s : State} {c : Current} (h : c.state ≠ .evaluate) :
    s.abort c = (s.letGo c).endWork .cancelled := by
  unfold State.abort
  cases hst : c.state with
  | evaluate => exact absurd hst h
  | select => rw [letGo_select hst]
  | startChecks | settle | integrate | commandTx | responseWait | busyWait | responseRx =>
    rw [letGo_other (by rw [hst]; decide)]

theorem abort_evaluated {s : State} {c : Current} {kind : SweepKind} {periods : Nat} {e : Evaluation}
    (h : c.state = .evaluate) (hk : c.work.kind = .sweep kind periods) (he : s.evaluation = some e) :
    s.abort c = s.sweepEnds c.work kind .cancelled e.evaluated e.saturated := by rw [State.abort, h, hk, he]

theorem abort_unevaluated {s : State} {c : Current} (h : c.state = .evaluate)
    (hu : c.work.isCommand = true ∨ s.evaluation = none) : s.abort c = s.endWork .cancelled := by
  unfold State.abort
  rw [h]
  unfold Work.isCommand at hu
  cases hk : c.work.kind with
  | command n op attempts => rfl
  | sweep kind periods =>
    rw [hk] at hu
    rw [hu.resolve_left Bool.false_ne_true]

section Abort

variable {s : State} {c : Current}

theorem abort_command {n : Nat} {op : Operation} {attempts : Nat} (hc : s.current = some c)
    (hk : c.work.kind = .command n op attempts) : s.abort c = (s.letGo c).commandEnds c n op .cancelled none none := by
  have hc' : (s.letGo c).current = some c := hc
  by_cases h : c.state = .evaluate
  · rw [abort_unevaluated h (.inl (by rw [Work.isCommand, hk])), letGo_other (by rw [h]; decide)]
    exact endWork_command hc hk _
  · rw [abort_of_not_evaluate h]
    exact endWork_command hc' hk _

/-- A sweep is aborted with the counts its CANCELLED record carries (R54, R56). -/
theorem abort_sweep {kind : SweepKind} {periods : Nat} (hc : s.current = some c) (hk : c.work.kind = .sweep kind periods) :
    ∃ evaluated saturated, s.abort c = (s.letGo c).sweepEnds c.work kind .cancelled evaluated saturated ∧
      s.currentCancelled c =
        .sweepDone c.work.tag c.work.pair kind .cancelled evaluated saturated s.clipCount := by
  have hc' : (s.letGo c).current = some c := hc
  by_cases h : c.state = .evaluate
  · have hgo : s.letGo c = s := letGo_other (by rw [h]; decide)
    rw [hgo, State.currentCancelled, hk, h]
    cases he : s.evaluation with
    | some e => exact ⟨e.evaluated, e.saturated, abort_evaluated h hk he, rfl⟩
    | none => exact ⟨0, 0, (abort_unevaluated h (.inr he)).trans (endWork_sweep hc hk _), rfl⟩
  · refine ⟨0, 0, (abort_of_not_evaluate h).trans (endWork_sweep hc' hk _), ?_⟩
    rw [State.currentCancelled, hk]
    cases hst : c.state with
    | evaluate => exact absurd hst h
    | startChecks | select | settle | integrate | commandTx | responseWait | busyWait | responseRx => rfl

end Abort

theorem isCommand_iff {w : Work} : w.isCommand = true ↔ ∃ n op attempts, w.kind = .command n op attempts := by
  unfold Work.isCommand
  cases w.kind with
  | sweep kind periods => exact ⟨nofun, nofun⟩
  | command n op attempts => exact ⟨fun _ => ⟨n, op, attempts, rfl⟩, fun _ => rfl⟩

theorem isCommand_eq_false_iff {w : Work} : w.isCommand = false ↔ ∃ kind periods, w.kind = .sweep kind periods := by
  unfold Work.isCommand
  cases w.kind with
  | sweep kind periods => exact ⟨fun _ => ⟨kind, periods, rfl⟩, fun _ => rfl⟩
  | command n op attempts => exact ⟨nofun, nofun⟩

theorem housing_of_command {w : Work} {n : Nat} {op : Operation} {attempts : Nat} (h : w.kind = .command n op attempts) :
    w.housing = n := by rw [Work.housing, h]

theorem operation_of_command {w : Work} {n : Nat} {op : Operation} {attempts : Nat}
    (h : w.kind = .command n op attempts) : w.operation = op := by rw [Work.operation, h]

/-- `t` follows from `s` by the abort of its current work `c` (R54, R55). -/
structure State.Aborted (s : State) (c : Current) (t : State) : Prop where
  rests : t.lineRests
  position : t.position = if c.state = .select then none else s.position
  queues : t.queues = (s.post (s.workQueueOf c.work) (s.currentCancelled c)).queues
  wp_same : s.swapSent c →
    t.wp c.work.pair c.work.housing = { s.wp c.work.pair c.work.housing with pump := .unknown }
  wp_other : ∀ p i, i ≤ 192 → ¬ (s.swapSent c ∧ p = c.work.pair ∧ i = c.work.housing) → t.wp p i = s.wp p i
  verdicts_auto : c.work.origin = .auto → c.work.isCommand = true →
    t.verdicts = (s.setStatus c.work.pair .cancelled).verdicts
  verdicts_other : c.work.origin ≠ .auto ∨ c.work.isCommand = false → t.verdicts = s.verdicts
  frame : t = { s with
    current := t.current, allocation := t.allocation, chipTimer := t.chipTimer, settleTimer := t.settleTimer
    cmu := t.cmu, intervals := t.intervals, evaluation := t.evaluation, position := t.position
    queues := t.queues, watchPoints := t.watchPoints, verdicts := t.verdicts }

section Aborted

variable {s : State} {c : Current}

theorem aborted_sweep {kind : SweepKind} {periods : Nat} (hc : s.current = some c)
    (hk : c.work.kind = .sweep kind periods) : s.Aborted c (s.abort c) := by
  obtain ⟨evaluated, saturated, habort, hrecord⟩ := abort_sweep hc hk
  have hcommand : c.work.isCommand = false := isCommand_eq_false_iff.mpr ⟨kind, periods, hk⟩
  have hframe := sweepEnds_frame (s.letGo c) c.work kind .cancelled evaluated saturated
  rw [← habort] at hframe
  refine ⟨abort_rests hc, ?_, ?_, fun h => ?_, fun p i _ _ => ?_, fun _ h => ?_, fun _ => ?_, ?_⟩
  · rw [hframe]; rfl
  · rw [hframe, hrecord]; rfl
  · exact absurd (h.1.symm.trans hcommand) (by decide)
  · rw [hframe]; rfl
  · exact absurd (h.symm.trans hcommand) (by decide)
  · rw [hframe]; rfl
  · rw [hframe]; rfl

theorem verdicts_aborted {n : Nat} {op : Operation} : ((s.letGo c).commandEnds c n op .cancelled none none).verdicts =
    if c.work.origin = .auto then (s.setStatus c.work.pair .cancelled).verdicts else s.verdicts := by
  rw [verdicts_commandEnds]
  by_cases h : c.work.origin = .auto
  · rw [reported_auto h, if_pos h, verdicts_autoOutcome]
    rfl
  · rw [reported_channel h, if_neg h]
    rfl

/-- The Localiser marks no watch point for a command that was cancelled (R110). -/
theorem reported_cancelled {n : Nat} : s.reported c n .cancelled none =
    { s with verdicts := (s.reported c n .cancelled none).verdicts } := by
  by_cases h : c.work.origin = .auto
  · rw [reported_auto h]; rfl
  · rw [reported_channel h]

theorem swapSent_command {n : Nat} {op : Operation} {attempts : Nat} (hk : c.work.kind = .command n op attempts) :
    s.swapSent c ↔ op.busy = true ∧ frameSent c.state s.cmu.attempt = true := by
  rw [State.swapSent, operation_of_command hk, frameSent_iff]
  exact ⟨fun ⟨_, h⟩ => h, fun h => ⟨isCommand_iff.mpr ⟨n, op, attempts, hk⟩, h⟩⟩

theorem pumpAfter_of_swapSent {n : Nat} {op : Operation} {attempts : Nat} (hk : c.work.kind = .command n op attempts)
    (h : s.swapSent c) : pumpAfter op .cancelled c.state s.cmu.attempt none = some .unknown := by
  obtain ⟨hb, hsent⟩ := (swapSent_command hk).mp h
  rw [pumpAfter_cancelled hb, if_pos hsent]

theorem pumpAfter_of_not_swapSent {n : Nat} {op : Operation} {attempts : Nat}
    (hk : c.work.kind = .command n op attempts) (h : ¬ s.swapSent c) :
    pumpAfter op .cancelled c.state s.cmu.attempt none = none := by
  cases hb : op.busy with
  | false => exact pumpAfter_notBusy hb
  | true => rw [pumpAfter_cancelled hb, if_neg fun hsent => h ((swapSent_command hk).mpr ⟨hb, hsent⟩)]

theorem aborted_command {n : Nat} {op : Operation} {attempts : Nat} (hc : s.current = some c)
    (hk : c.work.kind = .command n op attempts) (hn : n ≤ 192) : s.Aborted c (s.abort c) := by
  have hcommand : c.work.isCommand = true := isCommand_iff.mpr ⟨n, op, attempts, hk⟩
  have habort := abort_command hc hk
  have hframe : (s.letGo c).commandEnds c n op .cancelled none none = _ := commandEnds_frame none
  have hverdicts : ((s.letGo c).commandEnds c n op .cancelled none none).verdicts = _ := verdicts_aborted
  have hqueues : ((s.letGo c).commandEnds c n op .cancelled none none).queues = _ := queues_commandEnds none
  have hwp : ((s.letGo c).commandEnds c n op .cancelled none none).wp c.work.pair n = { s.wp c.work.pair n with
      pump := (pumpAfter op .cancelled c.state s.cmu.attempt none).getD (s.wp c.work.pair n).pump } := by
    rw [wp_commandEnds_same, reported_cancelled]
    rfl
  have hother : ∀ p i, i ≤ 192 → (p ≠ c.work.pair ∨ i ≠ n) →
      ((s.letGo c).commandEnds c n op .cancelled none none).wp p i = s.wp p i :=
    fun p i hi hne => wp_commandEnds_other none hn hi hne
  rw [← habort] at hframe hverdicts hqueues hwp hother
  refine ⟨abort_rests hc, ?_, ?_, fun h => ?_, fun p i hi h => ?_, fun ha _ => ?_, fun h => ?_, ?_⟩
  · rw [hframe]; rfl
  · rw [hqueues, reported_cancelled, State.currentCancelled, hk]
    rfl
  · rw [housing_of_command hk, hwp, pumpAfter_of_swapSent hk h, Option.getD_some]
  · by_cases hp : p = c.work.pair ∧ i = n
    · obtain ⟨rfl, rfl⟩ := hp
      rw [hwp, pumpAfter_of_not_swapSent hk fun hsent => h ⟨hsent, rfl, (housing_of_command hk).symm⟩, Option.getD_none]
    · exact hother p i hi (by rwa [← not_and_or])
  · rw [hverdicts, if_pos ha]
  · rw [hverdicts, if_neg (h.resolve_right (by rw [hcommand]; decide))]
  · rw [hframe]; rfl

theorem aborted_abort (hc : s.current = some c) (hn : c.work.housing ≤ 192) : s.Aborted c (s.abort c) := by
  cases hk : c.work.kind with
  | sweep kind periods => exact aborted_sweep hc hk
  | command n op attempts => exact aborted_command hc hk (by rwa [housing_of_command hk] at hn)

end Aborted

/-! ### Work by its tag -/

theorem hasTag_iff {w : Work} {n : Nat} : w.hasTag n = true ↔ w.tag.toNat = n := decide_eq_true_iff

theorem tag_eq_iff {w v : Work} {n : Nat} (h : w.tag.toNat = n) : v.hasTag n = true ↔ v.tag = w.tag := by
  rw [hasTag_iff, ← h]
  exact BitVec.toNat_inj

/-- All work held, the current work first. -/
def State.heldWork (s : State) : List Work :=
  (s.current.map (·.work)).toList ++ (s.workQueue ++ s.isolationQueue)

theorem workByTag_eq (s : State) (n : Nat) : s.workByTag n = s.heldWork.find? (Work.hasTag n) := by
  unfold State.workByTag State.currentByTag State.heldWork
  cases s.current with
  | none => rfl
  | some c =>
    cases h : c.work.hasTag n with
    | true => simp [Option.filter, h]
    | false => simp [Option.filter, h]

theorem heldTags_perm (s : State) : s.heldTags.Perm (s.heldWork.map (·.tag)) := by
  have h : s.heldWork.map (·.tag) =
      (s.current.map (·.work.tag)).toList ++ (s.workQueue.map (·.tag) ++ s.isolationQueue.map (·.tag)) := by
    rw [State.heldWork, List.map_append, List.map_append]
    cases s.current <;> rfl
  rw [h]
  exact List.perm_append_comm

/-- The one element of a list with its key is found by that key. -/
theorem find?_of_nodup_map {α β : Type} {l : List α} {f : α → β} (h : (l.map f).Nodup) {a : α} (ha : a ∈ l)
    {p : α → Bool} (hp : ∀ b, p b = true ↔ f b = f a) : l.find? p = some a := by
  induction l with
  | nil => cases ha
  | cons b l ih =>
    rw [List.map_cons, List.nodup_cons] at h
    cases ha with
    | head => exact List.find?_cons_of_pos ((hp a).mpr rfl)
    | tail _ ha =>
      have hb : ¬ p b = true := fun hb => h.1 ((hp b).mp hb ▸ List.mem_map_of_mem ha)
      rw [List.find?_cons_of_neg hb, ih h.2 ha]

/-- To erase the first element with a key is to filter the key out, where no two elements share one. -/
theorem eraseP_of_nodup_map {α β : Type} {l : List α} {f : α → β} (h : (l.map f).Nodup) {p : α → Bool}
    (hp : ∀ a b, p a = true → p b = true → f a = f b) : l.eraseP p = l.filter fun a => !p a := by
  induction l with
  | nil => rfl
  | cons b l ih =>
    rw [List.map_cons, List.nodup_cons] at h
    cases hb : p b with
    | false => rw [List.eraseP_cons_of_neg (by rw [hb]; decide), List.filter_cons_of_pos (by rw [hb]; rfl), ih h.2]
    | true =>
      have hrest : ∀ a ∈ l, p a = false := fun a ha =>
        Bool.eq_false_iff.mpr fun hpa => h.1 (hp a b hpa hb ▸ List.mem_map_of_mem ha)
      rw [List.eraseP_cons_of_pos hb, List.filter_cons_of_neg (by rw [hb]; decide), List.filter_eq_self.mpr]
      intro a ha
      rw [hrest a ha]
      rfl

/-! ### The checks of CANCEL_WORK -/

section Cancel

variable {s : State} {ch : Channel} {h : Handed}

theorem cancelWork_outside (hn : 255 < h.word 0) : s.cancelWork h = s.answer h (.refusal .outOfRange) :=
  decided_refused (by rw [firstFailure_cons, outside_iff.mpr (.inr hn), if_pos rfl])

theorem inside_tag (hn : h.word 0 ≤ 255) : outside 0 255 (h.word 0) = false :=
  Bool.eq_false_iff.mpr fun ho => by
    have := outside_iff.mp ho
    omega

theorem cancelWork_none (hn : h.word 0 ≤ 255) (hw : s.workByTag (h.word 0) = none) :
    s.cancelWork h = s.answer h (.refusal .noSuchWork) :=
  decided_refused (by rw [firstFailure_cons, inside_tag hn, firstFailure_cons, hw]; rfl)

section Found

variable {w : Work} (hn : h.word 0 ≤ 255) (hw : s.workByTag (h.word 0) = some w)
include hn hw

theorem cancelWork_notClaimed (hm : s.mayCancel h.channel w = false) :
    s.cancelWork h = s.answer h (.refusal .notClaimed) :=
  decided_refused (by
    rw [firstFailure_cons, inside_tag hn, firstFailure_cons, hw, firstFailure_cons, State.lacksAuthority, hw]
    simp [hm])

theorem cancelWork_allowed (hm : s.mayCancel h.channel w = true) : s.cancelWork h =
    if s.tooLate (h.word 0) then s.answer h (.refusal .tooLate)
    else (s.cancelByTag (h.word 0)).answer h (.ok []) := by
  have hchecks : firstFailure [(outside 0 255 (h.word 0), Status.outOfRange),
      ((s.workByTag (h.word 0)).isNone, .noSuchWork), (s.lacksAuthority h, .notClaimed),
      (s.tooLate (h.word 0), .tooLate)] = if s.tooLate (h.word 0) then some .tooLate else none := by
    rw [firstFailure_cons, inside_tag hn, firstFailure_cons, hw, firstFailure_cons, State.lacksAuthority, hw]
    simp [hm, firstFailure]
  cases hl : s.tooLate (h.word 0) with
  | true => exact decided_refused (by rw [hchecks, hl]; rfl)
  | false => exact decided_passed (by rw [hchecks, hl]; rfl)

end Found

theorem mayCancel_iff {w : Work} : (s.taken ch .cancelWork).mayCancel ch w = true ↔
    w.origin = .channel ch ∨ s.lineClaim.owner = some ch := by
  rw [State.mayCancel, Bool.or_eq_true, decide_eq_true_iff]
  exact or_congr_right decide_eq_true_iff

end Cancel

/-- Settles O31: the checks by the found work, and what the abort leaves. -/
theorem currentWorkIsCancelled : Obligations.CurrentWorkIsCancelled := by
  intro s ch h c hs hc htag hhousing p swaps sent
  have hch : h.channel = ch := offers_channel hs
  have hn : h.word 0 ≤ 255 := by
    have := c.work.tag.isLt
    omega
  have hcurrent : (s.taken ch .cancelWork).currentByTag (h.word 0) = some c := by
    change s.current.filter _ = _
    rw [hc]
    exact Option.filter_some_pos (hasTag_iff.mpr htag)
  have hw : (s.taken ch .cancelWork).workByTag (h.word 0) = some c.work := by rw [State.workByTag, hcurrent]
  have hlate : (s.taken ch .cancelWork).tooLate (h.word 0) = decide (c.state = .evaluate) := by
    rw [State.tooLate, hcurrent]
  have hcancel : (s.taken ch .cancelWork).cancelByTag (h.word 0) = (s.taken ch .cancelWork).abort c := by
    rw [State.cancelByTag, hcurrent]
  have hexec : exec (.cancelWork ch) s = .next ((s.taken ch .cancelWork).cancelWork h) :=
    serve_offers hs fun h s => s.cancelWork h
  refine ⟨fun ho hl => ?notClaimed, fun hmay => ?allowed⟩
  case notClaimed =>
    rw [hexec, cancelWork_notClaimed hn hw]
    · rfl
    · rw [hch]
      exact Bool.eq_false_iff.mpr fun hm => (mayCancel_iff.mp hm).elim ho hl
  case allowed =>
    have hdone := cancelWork_allowed hn hw (by rw [hch]; exact mayCancel_iff.mpr hmay)
    rw [hlate, hcancel] at hdone
    refine ⟨fun he => ?_, fun he => ?_⟩
    · rw [hexec, hdone, if_pos (decide_eq_true he)]
      rfl
    · rw [if_neg (by rwa [decide_eq_true_iff])] at hdone
      have haborted : (s.taken ch .cancelWork).Aborted c ((s.taken ch .cancelWork).abort c) := aborted_abort hc hhousing
      have hframe := haborted.frame
      refine ⟨_, hexec.trans (congrArg _ hdone), haborted.rests, haborted.position, haborted.queues, fun q i hi => ?_,
        fun ha hcommand => ?_, fun hne => verdict_congr (haborted.verdicts_other hne) p, fun q hq => ?_, ?_⟩
      · by_cases hsent : swaps ∧ sent ∧ q = p ∧ i = c.work.housing
        · obtain ⟨⟨hcommand, hbusy⟩, hsent', rfl, rfl⟩ := hsent
          exact (haborted.wp_same ⟨hcommand, hbusy, hsent'⟩).trans
            (if_pos ⟨⟨hcommand, hbusy⟩, hsent', rfl, rfl⟩).symm
        · exact (haborted.wp_other q i hi fun ⟨⟨hcommand, hbusy, hsent'⟩, hq, hi⟩ =>
            hsent ⟨⟨hcommand, hbusy⟩, hsent', hq, hi⟩).trans (if_neg hsent).symm
      · exact (verdict_congr (haborted.verdicts_auto ha hcommand) p).trans (verdict_setStatus_same ..)
      · by_cases ha : c.work.origin = .auto ∧ c.work.isCommand = true
        · exact (verdict_congr (haborted.verdicts_auto ha.1 ha.2) q).trans (verdict_setStatus_other _ _ hq)
        · refine verdict_congr (haborted.verdicts_other ?_) q
          rwa [not_and_or, Bool.not_eq_true] at ha
      · generalize (s.taken ch .cancelWork).abort c = t at *
        rw [hframe]
        rfl

/-! ### Queued work taken back -/

/-- The queues with the work of one tag taken out. -/
def State.untagged (s : State) (tag : BitVec 8) : State :=
  { s with workQueue := s.workQueue.filter fun v => decide (v.tag ≠ tag)
           isolationQueue := s.isolationQueue.filter fun v => decide (v.tag ≠ tag) }

theorem eraseP_hasTag {l : List Work} {w : Work} {n : Nat} (hl : (l.map (·.tag)).Nodup) (hw : w.tag.toNat = n) :
    l.eraseP (Work.hasTag n) = l.filter fun v => decide (v.tag ≠ w.tag) := by
  rw [eraseP_of_nodup_map hl fun a b ha hb => ((tag_eq_iff hw).mp ha).trans ((tag_eq_iff hw).mp hb).symm]
  refine List.filter_congr fun v _ => ?_
  rw [Bool.eq_iff_iff, Bool.not_eq_true', decide_eq_true_iff, ← Bool.not_eq_true]
  exact not_congr (tag_eq_iff hw)

theorem cancelQueued_eq {s : State} {w : Work} {n : Nat} (h1 : (s.workQueue.map (·.tag)).Nodup)
    (h2 : (s.isolationQueue.map (·.tag)).Nodup) (hw : w.tag.toNat = n) : s.cancelQueued n w =
      if w.origin = .auto then
        ((s.untagged w.tag).post (s.workQueueOf w) w.cancelledRecord).setStatus w.pair .cancelled
      else (s.untagged w.tag).post (s.workQueueOf w) w.cancelledRecord := by
  have hcancel : s.cancelQueued n w = if w.origin = .auto then
      ((s.untagged w.tag).postCancelled w).setStatus w.pair .cancelled else (s.untagged w.tag).postCancelled w := by
    unfold State.cancelQueued
    rw [eraseP_hasTag h1 hw, eraseP_hasTag h2 hw]
    rfl
  rw [hcancel, postCancelled_eq]
  rfl

theorem cancelByTag_queued {s : State} {w : Work} {n : Nat} (hc : s.currentByTag n = none)
    (hw : s.workByTag n = some w) : s.cancelByTag n = s.cancelQueued n w := by
  have hfound : (s.workQueue ++ s.isolationQueue).find? (Work.hasTag n) = some w := by rw [← hw, State.workByTag, hc]
  rw [State.cancelByTag, hc, hfound]

theorem currentByTag_eq_none {s : State} {w : Work} {n : Nat} (ht : s.heldTags.Nodup)
    (hq : w ∈ s.workQueue ∨ w ∈ s.isolationQueue) (hw : w.tag.toNat = n) : s.currentByTag n = none := by
  cases hc : s.current with
  | none => rw [State.currentByTag, hc]; rfl
  | some c =>
    refine Option.eq_none_iff_forall_ne_some.mpr fun d hd => ?_
    obtain ⟨hcur, hd⟩ := Option.filter_eq_some_iff.mp hd
    have hmem : w.tag ∈ s.workQueue.map (·.tag) ++ s.isolationQueue.map (·.tag) :=
      List.mem_append.mpr (hq.imp List.mem_map_of_mem List.mem_map_of_mem)
    have hcurrent : d.work.tag ∈ (s.current.map (·.work.tag)).toList := by rw [hcur]; exact List.mem_singleton.mpr rfl
    exact (List.nodup_append.mp ht).2.2 _ hmem _ hcurrent ((tag_eq_iff hw).mp hd).symm

/-- Settles O30: no two pieces of work share a tag, so the one found is the one meant. -/
theorem queuedWorkIsCancelled : Obligations.QueuedWorkIsCancelled := by
  intro s ch h hs ht n
  have hch : h.channel = ch := offers_channel hs
  have hexec : exec (.cancelWork ch) s = .next ((s.taken ch .cancelWork).cancelWork h) :=
    serve_offers hs fun h s => s.cancelWork h
  have hheld : (s.heldWork.map (·.tag)).Nodup := (heldTags_perm s).nodup_iff.mp ht
  refine ⟨fun hn => ?outOfRange, fun hn hnone => ?noSuchWork, fun w hq hw => ?found⟩
  case outOfRange => rw [hexec, cancelWork_outside hn]; rfl
  case noSuchWork =>
    rw [hexec, cancelWork_none hn]
    · rfl
    · refine (workByTag_eq s n).trans (List.find?_eq_none.mpr fun v hv htag => ?_)
      exact hnone v.tag ((heldTags_perm s).mem_iff.mpr (List.mem_map_of_mem hv)) (hasTag_iff.mp htag)
  case found =>
    have hn : n ≤ 255 := by
      have := w.tag.isLt
      omega
    have hmem : w ∈ s.heldWork := List.mem_append_right _ (List.mem_append.mpr hq)
    have hfound : (s.taken ch .cancelWork).workByTag n = some w :=
      (workByTag_eq s n).trans (find?_of_nodup_map hheld hmem fun v => tag_eq_iff hw)
    have hcurrent : (s.taken ch .cancelWork).currentByTag n = none := currentByTag_eq_none (s := s) ht hq hw
    have hlate : (s.taken ch .cancelWork).tooLate n = false := by rw [State.tooLate, hcurrent]
    refine ⟨fun ho hl => ?notClaimed, fun hmay => ?allowed⟩
    case notClaimed =>
      rw [hexec, cancelWork_notClaimed hn hfound]
      · rfl
      · rw [hch]
        exact Bool.eq_false_iff.mpr fun hm => (mayCancel_iff.mp hm).elim ho hl
    case allowed =>
      have hqueues := List.nodup_append.mp (List.nodup_append.mp ht).1
      have hdone := cancelWork_allowed hn hfound (by rw [hch]; exact mayCancel_iff.mpr hmay)
      rw [hlate, if_neg (by decide), cancelByTag_queued hcurrent hfound,
        cancelQueued_eq (s := s.taken ch .cancelWork) hqueues.1 hqueues.2.1 hw] at hdone
      rw [hexec, hdone]
      by_cases ha : w.origin = .auto
      · rw [if_pos ha]
        exact ⟨_, rfl, rfl, rfl, rfl, fun _ => verdict_setStatus_same .., fun h => absurd ha h,
          fun p hp => verdict_setStatus_other _ _ hp, rfl⟩
      · rw [if_neg ha]
        exact ⟨_, rfl, rfl, rfl, rfl, fun h => absurd h ha, fun _ => rfl, fun _ _ => rfl, rfl⟩

end Sys2Proof.Machine
end

section
/-! SUPPORT. RESET_LINE: the abort, the emptied queues, the cleared Verdict Registers and the deferred reads. -/

namespace Sys2Proof.Machine

/-! ### Records, each to its queue -/

theorem postEach_append (s : State) (l m : List (RQ × RecordBody)) :
    s.postEach (l ++ m) = (s.postEach l).postEach m := List.foldl_append

theorem postEach_frame (s : State) (l : List (RQ × RecordBody)) :
    s.postEach l = { s with queues := (s.postEach l).queues } := by
  induction l generalizing s with
  | nil => rfl
  | cons b l ih =>
    rw [postEach_cons, ih]
    rfl

/-- What is posted depends on the report queues and the epoch count alone. -/
theorem queues_postEach_congr {s t : State} (hq : t.queues = s.queues) (he : t.epoch = s.epoch)
    (l : List (RQ × RecordBody)) : (t.postEach l).queues = (s.postEach l).queues := by
  induction l generalizing s t with
  | nil => exact hq
  | cons b l ih => exact ih (queues_post_congr hq he b.1 b.2) he

theorem postCancelledAll_eq (s : State) (l : List Work) :
    s.postCancelledAll l = s.postEach (l.map fun w => (s.workQueueOf w, w.cancelledRecord)) := by
  induction l generalizing s with
  | nil => rfl
  | cons w l ih =>
    rw [State.postCancelledAll, ih, postCancelled_eq]
    rfl

theorem queues_emptyQueues (s : State) : s.emptyQueues.queues =
    (s.postEach (s.workQueue.map fun w => (s.workQueueOf w, w.cancelledRecord))).queues := by
  rw [State.emptyQueues, postCancelledAll_eq]
  exact queues_postEach_congr (s := s) (t := { s with workQueue := [], isolationQueue := [] }) rfl rfl _

/-! ### Deferred reads -/

/-- What the Table Store answers depends on watch points, Verdict Registers and policies alone (R30). -/
theorem pairReply_congr {s t : State} (hw : t.watchPoints = s.watchPoints) (hv : t.verdicts = s.verdicts)
    (hp : t.policies = s.policies) (h : Handed) : t.pairReply h = s.pairReply h := by
  unfold State.pairReply State.verdictReply State.watchPointsReply State.wp State.verdict State.policy
  rw [hw, hv, hp]

/-- The answers to a list of deferred reads, from the registers as they stand (R30). -/
def State.deferredAnswers (s : State) (l : List Handed) : List Answer :=
  l.map fun d => ⟨d.channel, d.live, s.pairReply d⟩

theorem answerAll_eq (s : State) (l : List Handed) :
    s.answerAll l = { s with answers := s.answers ++ s.deferredAnswers l } := by
  induction l generalizing s with
  | nil => exact congrArg (fun a => ({ s with answers := a } : State)) (List.append_nil s.answers).symm
  | cons d l ih =>
    rw [State.answerAll, ih]
    exact congrArg (fun a => ({ s with answers := a } : State)) (List.append_assoc ..)

theorem answerDeferred_eq (s : State) :
    s.answerDeferred = { s with deferred := [], answers := s.answers ++ s.deferredAnswers s.deferred } := answerAll_eq ..

/-! ### The Verdict Registers cleared -/

/-- The VERDICT_CLEARED record of a pair, when a verdict stands (R115). -/
def State.clearedRecord (s : State) (p : Pair) : Option (RQ × RecordBody) :=
  (s.verdict p).confirmed.map fun v => ((s.policy p).verdictQueue, .verdictCleared p v .lineReset)

theorem postCleared_eq (s : State) (p : Pair) : s.postCleared p .lineReset = s.postEach (s.clearedRecord p).toList := by
  unfold State.postCleared State.clearedRecord
  cases (s.verdict p).confirmed <;> rfl

theorem clearedRecord_congr {s t : State} {p : Pair} (hv : (t.verdict p).confirmed = (s.verdict p).confirmed)
    (hp : t.policies = s.policies) : t.clearedRecord p = s.clearedRecord p := by
  unfold State.clearedRecord State.policy
  rw [hv, hp]

/-- One pair's register cleared, after its record. -/
def State.verdictReset (s : State) (p : Pair) : State :=
  (s.postCleared p .lineReset).setVerdict p (verdictDefault p.val)

theorem verdict_verdictReset_same (s : State) (p : Pair) : (s.verdictReset p).verdict p = verdictDefault p.val :=
  verdict_setVerdict_same ..

theorem verdict_verdictReset_other (s : State) {p q : Pair} (h : q ≠ p) : (s.verdictReset p).verdict q = s.verdict q := by
  rw [State.verdictReset, verdict_setVerdict_other _ _ h, postCleared_frame]
  rfl

theorem verdict_clearVerdicts (s : State) (l : List Pair) (p : Pair) :
    (s.clearVerdicts l).verdict p = if p ∈ l then verdictDefault p.val else s.verdict p := by
  induction l generalizing s with
  | nil => rfl
  | cons q l ih =>
    change ((s.verdictReset q).clearVerdicts l).verdict p = _
    rw [ih]
    by_cases hl : p ∈ l
    · rw [if_pos hl, if_pos (List.mem_cons_of_mem _ hl)]
    · rw [if_neg hl]
      by_cases hq : p = q
      · rw [if_pos (hq ▸ List.mem_cons_self), hq, verdict_verdictReset_same]
      · rw [if_neg (by rw [List.mem_cons, not_or]; exact ⟨hq, hl⟩), verdict_verdictReset_other s hq]

theorem queues_clearVerdicts (s : State) {l : List Pair} (hl : l.Nodup) :
    (s.clearVerdicts l).queues = (s.postEach (l.filterMap s.clearedRecord)).queues := by
  induction l generalizing s with
  | nil => rfl
  | cons p l ih =>
    rw [List.nodup_cons] at hl
    have hframe := postCleared_frame s p .lineReset
    have hrecords : l.filterMap (s.verdictReset p).clearedRecord = l.filterMap s.clearedRecord := by
      refine List.filterMap_congr fun q hq => clearedRecord_congr ?_ ?_
      · rw [verdict_verdictReset_other s fun h : q = p => hl.1 (h ▸ hq)]
      · rw [State.verdictReset, hframe]
        rfl
    have hsplit : (p :: l).filterMap s.clearedRecord = (s.clearedRecord p).toList ++ l.filterMap s.clearedRecord := by
      rw [List.filterMap_cons]
      cases s.clearedRecord p <;> rfl
    change ((s.verdictReset p).clearVerdicts l).queues = _
    rw [ih (s.verdictReset p) hl.2, hrecords, hsplit, postEach_append, ← postCleared_eq]
    exact queues_postEach_congr (s := s.postCleared p .lineReset) (t := s.verdictReset p) rfl rfl _

/-! ### The current work aborted, if there is one -/

/-- The record an abort posts, when work is current (R54, R56). -/
def State.abortRecords (s : State) : List (RQ × RecordBody) :=
  (s.current.map fun c => (s.workQueueOf c.work, s.currentCancelled c)).toList

/-- An abort writes the pump state of that watch point (R55, R136). -/
def State.abortWrites (s : State) (p : Pair) (i : Nat) : Prop :=
  ∃ c, s.current = some c ∧ s.swapSent c ∧ p = c.work.pair ∧ i = c.work.housing

theorem abortCurrent_none {s : State} (h : s.current = none) : s.abortCurrent = s := by rw [State.abortCurrent, h]

theorem abortCurrent_some {s : State} {c : Current} (h : s.current = some c) : s.abortCurrent = s.abort c := by
  rw [State.abortCurrent, h]

/-- The state before the selector returns to rest: work gone, registers cleared (R56). -/
def State.lineCleared (s : State) : State := s.abortCurrent.emptyQueues.clearVerdicts allPairs

theorem lineCleared_frame (s : State) : s.lineCleared = { s.abortCurrent with
    workQueue := [], isolationQueue := [], queues := s.lineCleared.queues, verdicts := s.lineCleared.verdicts } := by
  unfold State.lineCleared
  rw [clearVerdicts_frame, emptyQueues_frame]

section AbortCurrent

variable {s : State} (hn : ∀ c, s.current = some c → c.work.housing ≤ 192)
include hn

theorem abortCurrent_frame : s.abortCurrent = { s with
    current := none, allocation := s.abortCurrent.allocation, chipTimer := s.abortCurrent.chipTimer
    settleTimer := s.abortCurrent.settleTimer, cmu := s.abortCurrent.cmu, intervals := s.abortCurrent.intervals
    evaluation := s.abortCurrent.evaluation, position := s.abortCurrent.position, queues := s.abortCurrent.queues
    watchPoints := s.abortCurrent.watchPoints, verdicts := s.abortCurrent.verdicts } := by
  cases hc : s.current with
  | none =>
    rw [abortCurrent_none hc, ← hc]
  | some c =>
    have haborted := aborted_abort hc (hn c hc)
    have hnone := haborted.rests.1
    have hframe := haborted.frame
    rw [abortCurrent_some hc]
    rw [hnone] at hframe
    exact hframe

theorem queues_abortCurrent : s.abortCurrent.queues = (s.postEach s.abortRecords).queues := by
  cases hc : s.current with
  | none => rw [abortCurrent_none hc, State.abortRecords, hc]; rfl
  | some c =>
    rw [abortCurrent_some hc, State.abortRecords, hc]
    exact (aborted_abort hc (hn c hc)).queues

theorem confirmed_abortCurrent (p : Pair) : (s.abortCurrent.verdict p).confirmed = (s.verdict p).confirmed := by
  cases hc : s.current with
  | none => rw [abortCurrent_none hc]
  | some c =>
    have haborted := aborted_abort hc (hn c hc)
    rw [abortCurrent_some hc]
    by_cases ha : c.work.origin = .auto ∧ c.work.isCommand = true
    · rw [verdict_congr (haborted.verdicts_auto ha.1 ha.2)]
      by_cases hp : p = c.work.pair
      · rw [hp, verdict_setStatus_same]
      · rw [verdict_setStatus_other _ _ hp]
    · rw [not_and_or, Bool.not_eq_true] at ha
      rw [verdict_congr (haborted.verdicts_other ha)]

theorem wp_abortCurrent (p : Pair) {i : Nat} (hi : i ≤ 192) :
    (s.abortWrites p i → s.abortCurrent.wp p i = { s.wp p i with pump := .unknown }) ∧
      (¬ s.abortWrites p i → s.abortCurrent.wp p i = s.wp p i) := by
  unfold State.abortWrites
  cases hc : s.current with
  | none =>
    rw [abortCurrent_none hc]
    exact ⟨fun ⟨_, h, _⟩ => (nomatch h), fun _ => rfl⟩
  | some c =>
    have haborted := aborted_abort hc (hn c hc)
    rw [abortCurrent_some hc]
    refine ⟨fun ⟨d, hd, hsent, hp, hi⟩ => ?_, fun h => haborted.wp_other p i hi fun hsent => h ⟨c, rfl, hsent⟩⟩
    obtain rfl := Option.some.inj hd
    rw [hp, hi]
    exact haborted.wp_same hsent

/-- The records of RESET_LINE, in order (R56, R115). -/
theorem queues_lineCleared : s.lineCleared.queues = (s.postEach (s.abortRecords ++
    s.workQueue.map (fun w => (s.workQueueOf w, w.cancelledRecord)) ++ allPairs.filterMap s.clearedRecord)).queues := by
  have hframe := abortCurrent_frame hn
  have hqueues := queues_abortCurrent hn
  have hconfirmed := confirmed_abortCurrent hn
  unfold State.lineCleared
  generalize s.abortCurrent = u at *
  have hwork : u.workQueue = s.workQueue := by rw [hframe]
  have hhomes : u.homes = s.homes := by rw [hframe]
  have hpolicies : u.policies = s.policies := by rw [hframe]
  have hepoch : u.epoch = s.epoch := by rw [hframe]
  clear hframe
  have hemptied : u.emptyQueues.queues =
      (u.postEach (s.workQueue.map fun w => (s.workQueueOf w, w.cancelledRecord))).queues := by
    rw [queues_emptyQueues, hwork, funext fun w => workQueueOf_congr hhomes hpolicies w]
  have hrecords : allPairs.filterMap u.emptyQueues.clearedRecord = allPairs.filterMap s.clearedRecord := by
    refine List.filterMap_congr fun p _ => clearedRecord_congr ?_ ?_
    · rw [emptyQueues_frame]
      exact hconfirmed p
    · rw [emptyQueues_frame]
      exact hpolicies
  rw [queues_clearVerdicts _ allPairs_nodup, hrecords, postEach_append, postEach_append]
  refine queues_postEach_congr ?_ ?_ _
  · rw [hemptied]
    refine queues_postEach_congr hqueues ?_ _
    rw [postEach_frame]
    exact hepoch
  · rw [emptyQueues_frame, postEach_frame, postEach_frame s]
    exact hepoch

end AbortCurrent

theorem lineReset_eq (s : State) : s.lineReset = { s.lineCleared with
    position := none, requested := none, settleTimer := none, deferred := []
    answers := s.lineCleared.answers ++ s.lineCleared.deferredAnswers s.lineCleared.deferred } := by
  change ({ s.lineCleared with position := none, requested := none, settleTimer := none } : State).answerDeferred = _
  generalize s.lineCleared = v
  exact answerDeferred_eq _

/-- Settles O32: the stages of RESET_LINE, each by what it leaves. -/
theorem resetLineReturnsToKnownStart : Obligations.ResetLineReturnsToKnownStart := by
  intro s ch h hs hn
  have hch : h.channel = ch := offers_channel hs
  have hexec : exec (.resetLine ch) s = .next ((s.taken ch .resetLine).resetLine h) :=
    serve_offers hs fun h s => s.resetLine h
  refine ⟨fun hclaim => ?notClaimed, fun hclaim => ?reset⟩
  case notClaimed =>
    rw [hexec]
    exact congrArg _ (decided_refused (by rw [firstFailure_cons, (lacksLine_taken hch).mpr hclaim]; rfl))
  case reset =>
    have hpassed : (!(s.taken ch .resetLine).holds h.channel .line) = false :=
      Bool.eq_false_iff.mpr fun hl => (lacksLine_taken hch).mp hl hclaim
    have hdone : (s.taken ch .resetLine).resetLine h = (s.taken ch .resetLine).lineReset.answer h (.ok []) :=
      decided_passed (by rw [firstFailure_cons, hpassed]; rfl)
    let u := s.taken ch .resetLine
    have hu : ∀ c, u.current = some c → c.work.housing ≤ 192 := hn
    have haborted := abortCurrent_frame hu
    have hcleared := lineCleared_frame (s := u)
    have hwp (p : Pair) {i : Nat} (hi : i ≤ 192) := wp_abortCurrent hu p hi
    have hrecords := queues_lineCleared hu
    have hverdict (p : Pair) : u.lineCleared.verdict p = verdictDefault p.val :=
      (verdict_clearVerdicts _ allPairs p).trans (if_pos (mem_allPairs p))
    have hrests (hc : s.current ≠ none) : u.abortCurrent.lineRests := by
      obtain ⟨c, hc⟩ := Option.ne_none_iff_exists'.mp hc
      rw [abortCurrent_some (s := u) hc]
      exact abort_rests hc
    have hstays (hc : s.current = none) : u.abortCurrent = u := abortCurrent_none (s := u) hc
    have hqueue : u.abortRecords ++ u.workQueue.map (fun w => (u.workQueueOf w, w.cancelledRecord)) ++
        allPairs.filterMap u.clearedRecord = s.abortRecords ++
          s.workQueue.map (fun w => (s.workQueueOf w, w.cancelledRecord)) ++ allPairs.filterMap s.clearedRecord := rfl
    rw [hqueue] at hrecords
    rw [hexec, hdone, lineReset_eq]
    generalize u.lineCleared = v at *
    generalize u.abortCurrent = a at *
    refine ⟨_, rfl, ?current, ?work, ?isolation, rfl, rfl, rfl, rfl, fun hc => ?rests, hverdict, ?queues, ?answers,
      fun p i hi => ?wp, fun hc => ?stays, ?frame⟩
    case current => rw [hcleared, haborted]; rfl
    case work => rw [hcleared]; rfl
    case isolation => rw [hcleared]; rfl
    case rests =>
      obtain ⟨hcurrent, halloc, hchip, hsettle, hcmu, hint, heval⟩ := hrests hc
      rw [hcleared]
      exact ⟨hcurrent, halloc, hchip, rfl, hcmu, hint, heval⟩
    case queues =>
      refine hrecords.trans ((queues_postEach_congr (s := s) (t := u) rfl rfl _).trans ?_)
      unfold State.abortRecords
      cases s.current <;> rfl
    case answers =>
      rw [hcleared, haborted]
      rfl
    case wp =>
      rw [hcleared]
      exact hwp p hi
    case stays =>
      rw [hcleared, hstays hc]
      exact ⟨rfl, rfl, rfl, rfl, rfl⟩
    case frame =>
      rw [hcleared, haborted]
      rfl
end Sys2Proof.Machine
end

section
/-! SUPPORT. The take and the start checks. -/

namespace Sys2Proof.Machine

/-! ### What the take leaves -/

section Begin

variable (s : State) {w : Work}

theorem begin_sweep (h : w.isCommand = false) : (s.begin w).clipCount = 0 ∧ (s.begin w).cmu = s.cmu := by
  obtain ⟨kind, periods, hk⟩ := isCommand_eq_false_iff.mp h
  unfold State.begin
  rw [hk]
  dsimp only
  split <;> exact ⟨rfl, rfl⟩

theorem begin_command (h : w.isCommand = true) :
    (s.begin w).clipCount = s.clipCount ∧ (s.begin w).cmu = { CommandUnit.reset with phase := .checking } := by
  obtain ⟨n, op, attempts, hk⟩ := isCommand_iff.mp h
  unfold State.begin
  rw [hk]
  dsimp only
  split <;> exact ⟨rfl, rfl⟩

theorem verdicts_begin_auto (h : w.origin = .auto) : (s.begin w).verdicts = (s.setStatus w.pair .inFlight).verdicts := by
  unfold State.begin
  dsimp only
  rw [if_pos h]
  cases w.kind <;> rfl

theorem verdicts_begin_channel (h : w.origin ≠ .auto) : (s.begin w).verdicts = s.verdicts := by
  unfold State.begin
  dsimp only
  rw [if_neg h]
  cases w.kind <;> rfl

end Begin

theorem take_isolation {s : State} {w : Work} {rest : List Work} (h : s.isolationQueue = w :: rest) :
    s.take = ({ s with isolationQueue := rest } : State).begin w := by rw [State.take, nextWork_isolation h]

theorem take_work {s : State} {w : Work} {rest : List Work} (h : s.isolationQueue = [])
    (hw : s.workQueue = w :: rest) : s.take = ({ s with workQueue := rest } : State).begin w := by
  rw [State.take, nextWork_work h hw]

theorem take_none {s : State} (h : s.isolationQueue = []) (hw : s.workQueue = []) : s.take = s := by
  rw [State.take, nextWork_none h hw]

/-- A take that leaves no current work has changed nothing (R44). -/
theorem take_current_none {s : State} (h : s.take.current = none) : s.take = s := by
  cases hi : s.isolationQueue with
  | cons w rest =>
    rw [take_isolation hi, current_begin] at h
    cases h
  | nil =>
    cases hw : s.workQueue with
    | cons w rest =>
      rw [take_work hi hw, current_begin] at h
      cases h
    | nil => exact take_none hi hw

/-- The state after the take of TAKE_WORK, before any start checks (R44). -/
def State.taking (s : State) : State := if s.current = none then s.take else s

theorem exec_takeWork {s : State} (h : s.resetAsserted = false) (checks : Bool) :
    exec (.takeWork checks) s = .next (if checks then s.taking.checkStart else s.taking) := by
  change execTakeWork checks s = _
  rw [execTakeWork, live_next h]
  rfl

theorem taking_taking (s : State) : s.taking.taking = s.taking := by
  unfold State.taking
  by_cases h : s.current = none
  · rw [if_pos h]
    split
    next ht => rw [take_current_none ht, take_current_none ht]
    next => rfl
  · rw [if_neg h, if_neg h]

theorem resetAsserted_taking (s : State) : s.taking.resetAsserted = s.resetAsserted := by
  unfold State.taking
  split
  · cases hi : s.isolationQueue with
    | cons w rest => rw [take_isolation hi, begin_frame]
    | nil =>
      cases hw : s.workQueue with
      | cons w rest => rw [take_work hi hw, begin_frame]
      | nil => rw [take_none hi hw]
  · rfl

/-- Settles O33: the Isolation Queue first, and the checks in the same step or the next. -/
theorem takeWorkPrefersIsolation : Obligations.TakeWorkPrefersIsolation := by
  refine ⟨fun s w rest hs hc hq => ?takes, fun s hs hc hi hw b => ?nothing, fun s t ht => ?checks⟩
  case takes =>
    obtain ⟨u, htake, hu, hiso, hwork, hframe⟩ : ∃ u : State, s.take = u.begin w ∧
        u = { s with isolationQueue := u.isolationQueue, workQueue := u.workQueue } ∧
        u.isolationQueue = s.isolationQueue.tail ∧
        u.workQueue = (if s.isolationQueue = [] then s.workQueue.tail else s.workQueue) ∧
        (u.begin w) = { s with
          current := (u.begin w).current, isolationQueue := u.isolationQueue, workQueue := u.workQueue
          clipCount := (u.begin w).clipCount, cmu := (u.begin w).cmu, verdicts := (u.begin w).verdicts } := by
      obtain hi | ⟨hi, hw⟩ := hq
      · exact ⟨_, take_isolation hi, rfl, by rw [hi]; rfl, by rw [hi]; rfl, begin_frame ..⟩
      · exact ⟨_, take_work hi hw, rfl, by rw [hi]; rfl, by rw [hi, hw]; rfl, begin_frame ..⟩
    have htaking : s.taking = u.begin w := (if_pos hc).trans htake
    have hcmu : u.cmu = s.cmu := by rw [hu]
    have hclip : u.clipCount = s.clipCount := by rw [hu]
    have hlen : u.len = s.len := by rw [hu]; rfl
    have hverdicts : u.verdicts = s.verdicts := by rw [hu]
    refine ⟨s.taking, exec_takeWork hs false, ?_⟩
    rw [htaking]
    refine ⟨?_, ?_, ?_, fun h => ?_, fun h => ?_, fun h => ?_, fun h => ?_, fun p hp => ?_, ?_⟩
    · rw [current_begin, hlen]; rfl
    · rw [begin_frame]; exact hiso
    · rw [begin_frame]; exact hwork
    · rw [← hcmu]; exact begin_sweep u h
    · rw [← hclip]; exact begin_command u h
    · rw [verdict_congr (verdicts_begin_auto u h), verdict_setStatus_same, verdict_congr hverdicts]
    · rw [verdict_congr (verdicts_begin_channel u h), verdict_congr hverdicts]
    · by_cases h : w.origin = .auto
      · rw [verdict_congr (verdicts_begin_auto u h), verdict_setStatus_other _ _ hp, verdict_congr hverdicts]
      · rw [verdict_congr (verdicts_begin_channel u h), verdict_congr hverdicts]
    · generalize u.begin w = t at *
      rw [hframe]
  case nothing =>
    have htaking : s.taking = s := (if_pos hc).trans (take_none hi hw)
    have hcheck : s.checkStart = s := by rw [State.checkStart, hc]
    rw [exec_takeWork hs, htaking, hcheck, ite_self]
  case checks =>
    cases hs : s.resetAsserted with
    | true =>
      have hheld : exec (.takeWork false) s = .next s := by
        change execTakeWork false s = _
        rw [execTakeWork, live_held hs]
      rw [Host.Outcome.next.inj (hheld.symm.trans ht)]
    | false =>
      obtain rfl : s.taking = t := Host.Outcome.next.inj ((exec_takeWork hs false).symm.trans ht)
      rw [exec_takeWork hs, exec_takeWork ((resetAsserted_taking s).trans hs), taking_taking]

/-! ### The start checks of a sweep -/

theorem checkStart_current {s : State} {c : Current} (hc : s.current = some c) (hst : c.state = .startChecks) :
    s.checkStart = s.startChecks c := by rw [State.checkStart, hc]; exact if_pos hst

theorem exec_takeWork_checks {s : State} {c : Current} (hs : s.resetAsserted = false) (hc : s.current = some c)
    (hst : c.state = .startChecks) : exec (.takeWork true) s = .next (s.startChecks c) := by
  have htaking : s.taking = s := if_neg (by rw [hc]; exact Option.some_ne_none c)
  rw [exec_takeWork hs, htaking, if_pos rfl, checkStart_current hc hst]

section Segments

variable (s : State) (p : Pair) (first : Nat) (l : List Nat)

theorem map_segments : (s.segments p first l).map (fun g => (g.housing, g.width, g.centre)) =
    l.map fun i => (i, s.widthOf p i, (s.wp p i).centre) := by
  induction l generalizing first with
  | nil => rfl
  | cons h rest ih => rw [State.segments, List.map_cons, List.map_cons, ih]

/-- Segments are packed: each begins where the widths before it end (R60). -/
theorem first_of_getElem?_segments {k : Nat} {g : Segment} (hg : (s.segments p first l)[k]? = some g) :
    g.first = first + (((s.segments p first l).take k).map (·.width)).sum := by
  induction l generalizing first k with
  | nil => cases hg
  | cons h rest ih =>
    rw [State.segments] at hg ⊢
    cases k with
    | zero =>
      obtain rfl := Option.some.inj hg
      rfl
    | succ k =>
      rw [List.take_succ_cons, List.map_cons, List.sum_cons, ih _ hg]
      exact Nat.add_assoc ..

/-- The cells of packed segments are one range, which allocation clears (R60). -/
theorem read_clearSegments (m : Memory Cell) (k : Nat) :
    Memory.read cellDefault (clearSegments m (s.segments p first l)) k =
      if first ≤ k ∧ k < first + (l.map (s.widthOf p)).sum then ⟨0, false⟩ else Memory.read cellDefault m k := by
  induction l generalizing first m with
  | nil =>
    rw [if_neg (by simp)]
    rfl
  | cons h rest ih =>
    rw [State.segments, clearSegments, ih, Memory.read_clearRange, List.map_cons, List.sum_cons]
    by_cases h1 : first + s.widthOf p h ≤ k ∧ k < first + s.widthOf p h + (rest.map (s.widthOf p)).sum
    · rw [if_pos h1, if_pos (by omega)]
    · rw [if_neg h1]
      by_cases h2 : first ≤ k ∧ k < first + s.widthOf p h
      · rw [if_pos h2, if_pos (by omega)]
        rfl
      · rw [if_neg h2, if_neg (by omega)]

end Segments

/-- Settles O34: the two refusals in order, then packed and cleared segments. -/
theorem sweepStartChecksAllocate : Obligations.SweepStartChecksAllocate := by
  intro s c kind periods hs hc hst hk p enabled width
  have hexec : exec (.takeWork true) s = .next (s.startSweepChecks c kind) := by
    rw [exec_takeWork_checks hs hc hst, State.startChecks, hk]
  refine ⟨fun hsum => ?budget, fun hsum hnorm href => ?reference, fun hsum hok => ?passed⟩
  case budget =>
    rw [hexec]
    exact congrArg _ (if_pos hsum)
  case reference =>
    rw [hexec]
    refine congrArg _ ((if_neg (Nat.not_lt.mpr hsum)).trans (if_pos ?_))
    rw [hnorm, href]
    rfl
  case passed =>
    have hreference : ¬ ((s.policy p).normalise && !(s.wp p 0).enabled) = true := by
      rw [Bool.and_eq_true]
      rintro ⟨hnorm, hoff⟩
      obtain h | h := hok
      · rw [h] at hnorm; cases hnorm
      · rw [h] at hoff; cases hoff
    refine ⟨s.allocate (s.segments p 0 enabled), ?_, map_segments s p 0 enabled, fun k g hg => ?_, fun k => ?_, rfl⟩
    · rw [hexec]
      exact congrArg _ ((if_neg (Nat.not_lt.mpr hsum)).trans (if_neg hreference))
    · exact (first_of_getElem?_segments s p 0 enabled hg).trans (Nat.zero_add _)
    · have hread := read_clearSegments s p 0 enabled s.cells k
      rw [Nat.zero_add] at hread
      refine hread.trans ?_
      exact if_congr (and_iff_right (Nat.zero_le k)) rfl rfl

/-! ### The start checks of a command -/

theorem notVisible_iff {s : State} {p : Pair} {n : Nat} : s.notVisible p n = true ↔
    n = 0 ∨ (s.housing n).present = false ∨ (s.wp p n).enabled = false ∨ (s.wp p n).level = none ∨
      ∃ level, (s.wp p n).level = some level ∧ level < (s.policy p).levelMin := by
  unfold State.notVisible
  rw [Bool.or_eq_true, Bool.or_eq_true, Bool.or_eq_true, decide_eq_true_iff, Bool.not_eq_true', Bool.not_eq_true',
    or_assoc, or_assoc]
  cases (s.wp p n).level with
  | none => simp
  | some level => simp

theorem unsupported_iff {e : HousingEntry} {op : Operation} : e.unsupported op = true ↔
    op.busy = true ∧ e.swapCapable = false ∨ op = .readTelemetry ∧ e.longCapable = false := by
  cases op <;> simp [HousingEntry.unsupported, Operation.busy]

/-- Settles O35: the tests say their conditions, and the capture is the model's. -/
theorem commandStartChecksCapture : Obligations.CommandStartChecksCapture := by
  intro s c n op attempts hs hc hst hk p wp entry hidden unable
  have hexec : exec (.takeWork true) s = .next (s.startCommandChecks c n op attempts) := by
    rw [exec_takeWork_checks hs hc hst, State.startChecks, hk]
  refine ⟨fun hh => ?notVisible, fun hh hu => ?unsupported, ?captured⟩
  case notVisible =>
    rw [hexec]
    exact congrArg _ (if_pos (notVisible_iff.mpr hh))
  case unsupported =>
    rw [hexec]
    exact congrArg _ ((if_neg (mt notVisible_iff.mp hh)).trans (if_pos (unsupported_iff.mpr hu)))
  case captured =>
    intro hh hu level hl captured
    have hcapture : s.capture p n op attempts = captured := by
      unfold State.capture
      rw [hl]
      rfl
    rw [hexec, ← hcapture]
    exact congrArg _ ((if_neg (mt notVisible_iff.mp hh)).trans (if_neg (mt unsupported_iff.mp hu)))

end Sys2Proof.Machine
end

section
/-! SUPPORT. Selection, the entry to the line, the confirm input and loss of signal. -/

namespace Sys2Proof.Machine

/-! ### Selection -/

section Selection

variable {s : State} {c : Current}

theorem selection_selected (h : s.position = some c.work.pair) : s.selection c = s.enterLine c := if_pos h

theorem selection_requests (h : s.position ≠ some c.work.pair) (hi : s.confirmInput ≠ some c.work.pair) :
    s.selection c = s.requesting c := (if_neg h).trans (if_neg hi)

theorem selection_confirms (h : s.position ≠ some c.work.pair) (hi : s.confirmInput = some c.work.pair) :
    s.selection c = (s.requesting c).confirmed c := (if_neg h).trans (if_pos hi)

end Selection

/-- The probe put on the line for work in a state (R5, R48, R51). -/
def State.launched (s : State) (c : Current) (st : LineState) : State :=
  { s.loadProbe with current := some { c with state := st } }

/-- The Command Unit as an attempt begins (R51, R125). -/
def CommandUnit.attempting (u : CommandUnit) : CommandUnit :=
  { u with phase := .frame, bit := 1, interval := 0, startCount := 0, litRun := false, collector := []
           attempt := u.attempt + 1, status := none, telemetry := none }

theorem enterSettle_eq (s : State) (c : Current) : s.enterSettle c =
    if s.losInput then (s.launched c .settle).losEnds else s.launched c .settle := rfl

theorem enterTx_eq (s : State) (c : Current) : s.enterTx c =
    let u := { s.launched c .commandTx with cmu := s.cmu.attempting, intervals := [] }
    if s.losInput then u.losEnds else u := rfl

/-- Settles O36: the cases of the selection, and both entries. -/
theorem selectionLeadsToTheLine : Obligations.SelectionLeadsToTheLine := by
  refine fun s c => ⟨selection_selected, selection_requests, selection_confirms, ?sweep, ?command⟩
  case sweep =>
    intro hw u
    rw [enterLine_sweep s hw]
    exact enterSettle_eq s c
  case command =>
    intro hw u
    rw [enterLine_command s hw]
    exact enterTx_eq s c

/-! ### The confirm input -/

section Confirm

variable {s : State} {input : Option Pair}

/-- SELECTOR_CONFIRM and LOSS_OF_POSITION bring the same input (R8, R9). -/
theorem exec_confirmInput {i : Instr} (hs : s.resetAsserted = false)
    (hi : i = .lossOfPosition input ∨ ∃ code, input = some code ∧ i = .selectorConfirm code) :
    exec i s = .next (s.confirmShows input) := by
  obtain rfl | ⟨code, rfl, rfl⟩ := hi
  · exact if_neg (by rw [hs]; decide)
  · exact if_neg (by rw [hs]; decide)

theorem confirmShows_unrequested (h : s.requested = none) : s.confirmShows input = { s with confirmInput := input } := by
  unfold State.confirmShows
  dsimp only
  rw [h]

variable {p : Pair} (hp : s.requested = some p)
include hp

theorem confirmShows_select {c : Current} (hc : s.current = some c) (hst : c.state = .select) : s.confirmShows input =
    if input = some p then ({ s with confirmInput := input } : State).confirmed c
    else { s with confirmInput := input } := by
  unfold State.confirmShows
  dsimp only
  rw [hp, hc]
  exact if_pos hst

theorem confirmShows_elsewhere (hst : ∀ c, s.current = some c → c.state ≠ .select) : s.confirmShows input =
    if input = some p then { s with confirmInput := input }
    else ({ s with confirmInput := input } : State).positionLost := by
  unfold State.confirmShows
  dsimp only
  rw [hp]
  cases hc : s.current with
  | none => rfl
  | some c => exact if_neg (hst c hc)

end Confirm

theorem onLine_iff {s : State} : s.onLine = true ↔ ∃ c, s.current = some c ∧ c.state.onLine = true := by
  unfold State.onLine
  cases s.current with
  | none => exact ⟨nofun, nofun⟩
  | some c => exact ⟨fun h => ⟨c, rfl, h⟩, fun ⟨d, hd, h⟩ => Option.some.inj hd ▸ h⟩

theorem positionLost_offLine {s : State} (hst : ∀ c, s.current = some c → c.state ≠ .select)
    (h : s.onLine = false) : s.positionLost = { s with position := none } := by
  unfold State.positionLost
  cases hc : s.current with
  | none => rfl
  | some c =>
    rw [onLine_of_current hc] at h
    have hne := hst c hc
    dsimp only
    cases hs : c.state with
    | startChecks | evaluate => rfl
    | select => exact absurd hs hne
    | settle | integrate | commandTx | responseWait | busyWait | responseRx => rw [hs] at h; cases h

theorem positionLost_onLine {s : State} (h : s.onLine = true) : s.positionLost = s.selectorFaultEnds := by
  obtain ⟨c, hc, hl⟩ := onLine_iff.mp h
  unfold State.positionLost
  rw [hc]
  dsimp only
  cases hs : c.state with
  | startChecks | evaluate | select => rw [hs] at hl; cases hl
  | settle | integrate | commandTx | responseWait | busyWait | responseRx => rfl

/-! ### The settle timer and loss of signal -/

theorem settleEnds_expired {s : State} (h : s.inState .select = true) (hx : s.settleExpired = true) :
    s.settleEnds = s.selectorFaultEnds := if_pos (by rw [h, hx]; rfl)

theorem settleEnds_rest {s : State} (h : s.inState .select = false ∨ s.settleExpired = false) : s.settleEnds = s := by
  refine if_neg ?_
  rw [Bool.and_eq_true]
  rintro ⟨h1, h2⟩
  obtain h | h := h
  · rw [h] at h1; cases h1
  · rw [h] at h2; cases h2

theorem settleExpired_eq {s : State} {timer : SettleTimer} (h : s.settleTimer = some timer) :
    s.settleExpired = decide (timer.limit ≤ (s.epoch - timer.start).toNat) := by rw [State.settleExpired, h]

/-- Settles O37: the input by the request and the state, the timer by its limit, loss of signal by its level. -/
theorem confirmInputAndLineFaults : Obligations.ConfirmInputAndLineFaults := by
  refine ⟨?confirm, ⟨?expiry, ?noExpiry, fun s hs => ⟨?cleared, fun hl => ?off, fun hl => ?on⟩⟩⟩
  case confirm =>
    intro s i input hs hi u
    have hexec := exec_confirmInput hs hi
    refine ⟨fun hr => ?_, fun p hp => ⟨fun c hc hst => ⟨fun hin => ?_, fun hin => ?_⟩, fun hst => ⟨fun hin => ?_,
      fun hin hl => ?_, fun hin hl => ?_⟩⟩⟩
    · rw [hexec, confirmShows_unrequested hr]
    · rw [hexec, confirmShows_select hp hc hst, if_pos hin]
      rfl
    · rw [hexec, confirmShows_select hp hc hst, if_neg hin]
    · rw [hexec, confirmShows_elsewhere hp hst, if_pos hin]
    · rw [hexec, confirmShows_elsewhere hp hst, if_neg hin, positionLost_offLine (s := u) hst hl]
    · rw [hexec, confirmShows_elsewhere hp hst, if_neg hin, positionLost_onLine (s := u) hl]
      rfl
  case expiry =>
    intro s c timer hs hc hst ht
    have hin : s.inState .select = true := by rw [inState_of_current hc, hst]; rfl
    have hexec : exec .selectorSettleExpiry s = .next s.settleEnds := live_next hs _
    refine ⟨fun hx => ?_, fun hx => ?_⟩
    · rw [hexec, settleEnds_expired hin (by rw [settleExpired_eq ht]; exact decide_eq_true hx)]
      rfl
    · rw [hexec, settleEnds_rest (.inr (by rw [settleExpired_eq ht]; exact decide_eq_false (by omega)))]
  case noExpiry =>
    intro s hs hin
    have hexec : exec .selectorSettleExpiry s = .next s.settleEnds := live_next hs _
    rw [hexec, settleEnds_rest (.inl hin)]
  case cleared => exact live_next (s := { s with losInput := false }) hs _
  case off =>
    refine (live_next (s := { s with losInput := true }) hs _).trans (congrArg _ (if_neg ?_))
    change ¬ s.onLine = true
    rw [hl]
    decide
  case on => exact (live_next (s := { s with losInput := true }) hs _).trans (congrArg _ (if_pos hl))

end Sys2Proof.Machine
end

section
/-! SUPPORT. Period ends and the timing of a frame. -/

namespace Sys2Proof.Machine

/-! ### Period ends -/

section PeriodEnd

variable {s : State} {c : Current} {t : ChipTimer} {st : LineState} {act : Current → ChipTimer → State}
  (hc : s.current = some c) (ht : s.chipTimer = some t)
include hc ht

theorem atPeriodEnd_due (hst : c.state = st) (hdue : (t.ends + 1) * c.len ≤ t.index) : s.atPeriodEnd st act = act c t := by
  rw [State.atPeriodEnd, hc, ht]
  exact if_pos ⟨hst, decide_eq_true hdue⟩

theorem atPeriodEnd_early (hlt : t.index < (t.ends + 1) * c.len) : s.atPeriodEnd st act = s := by
  rw [State.atPeriodEnd, hc, ht]
  exact if_neg fun h => absurd (of_decide_eq_true h.2) (Nat.not_le.mpr hlt)

end PeriodEnd

theorem settleStage_frame (e : Evaluation) (k : SweepKind) :
    e.settleStage k = { e with stage := (e.settleStage k).stage } := by
  unfold Evaluation.settleStage
  split <;> rfl

theorem stage_settleStage_remaining {e : Evaluation} (h : e.remaining ≠ []) (k : SweepKind) :
    (e.settleStage k).stage = e.stage := by rw [Evaluation.settleStage, if_neg h]

theorem stage_settleStage_done {e : Evaluation} (h : e.remaining = []) (k : SweepKind) :
    (e.settleStage k).stage = stageAfterSegments k e.refLost e.degraded := by rw [Evaluation.settleStage, if_pos h]

theorem stageAfterSegments_eq (kind : SweepKind) (refLost degraded : Bool) : stageAfterSegments kind refLost degraded =
    if refLost = true ∨ degraded = true then .finished else if kind = .monitor then .streak else .rebaseline := by
  unfold stageAfterSegments
  refine if_congr (by rw [Bool.or_eq_true]) rfl ?_
  cases kind <;> rfl

theorem periods_sweep {w : Work} {kind : SweepKind} {periods : Nat} (h : w.kind = .sweep kind periods) :
    w.periods = periods := by rw [Work.periods, h]

theorem sweepKind_sweep {w : Work} {kind : SweepKind} {periods : Nat} (h : w.kind = .sweep kind periods) :
    w.sweepKind = kind := by rw [Work.sweepKind, h]

section SweepEnds

variable {s : State} (hs : s.resetAsserted = false)
include hs

theorem exec_settlePeriodEnd : exec .settlePeriodEnd s = .next (s.atPeriodEnd .settle fun c t =>
    { s with current := some { c with state := .integrate }, chipTimer := some t.takeEnd }) := by
  change execSettlePeriodEnd s = _
  rw [execSettlePeriodEnd, live_next hs]

theorem exec_integratePeriodEnd : exec .integratePeriodEnd s = .next (s.atPeriodEnd .integrate fun c t =>
    if t.ends < c.work.periods then { s with chipTimer := some t.takeEnd } else s) := by
  change execIntegratePeriodEnd s = _
  rw [execIntegratePeriodEnd, live_next hs]

theorem exec_integrateComplete : exec .integrateComplete s = .next (s.atPeriodEnd .integrate fun c t =>
    if c.work.periods ≤ t.ends then
      { s with current := some { c with state := .evaluate }, chipTimer := none
               evaluation := some (s.newEvaluation c.work) }
    else s) := by
  change execIntegrateComplete s = _
  rw [execIntegrateComplete, live_next hs]

end SweepEnds

/-- Settles O40: a period end that is due acts in its state, and none is taken before. -/
theorem periodEndsMoveTheSweep : Obligations.PeriodEndsMoveTheSweep := by
  intro s c timer kind periods hs hc ht hk taken
  refine ⟨fun hdue => ⟨fun hst => ?settle, fun hst hp => ⟨?_, ?_⟩, fun hst hp => ⟨?_, ?complete⟩⟩,
    fun hlt => ⟨?_, ?_, ?_⟩⟩
  case settle => rw [exec_settlePeriodEnd hs, atPeriodEnd_due hc ht hst hdue]; rfl
  · rw [exec_integratePeriodEnd hs, atPeriodEnd_due hc ht hst hdue, periods_sweep hk, if_pos hp]; rfl
  · rw [exec_integrateComplete hs, atPeriodEnd_due hc ht hst hdue, periods_sweep hk, if_neg (Nat.not_le.mpr hp)]
  · rw [exec_integratePeriodEnd hs, atPeriodEnd_due hc ht hst hdue, periods_sweep hk, if_neg (Nat.not_lt.mpr hp)]
  case complete =>
    have hframe : s.newEvaluation c.work = _ := settleStage_frame ..
    refine ⟨s.newEvaluation c.work, ?_, ?_, ?_, ?_, ?_, ?_, ?_, fun h => ?_, fun h => ?_⟩
    · rw [exec_integrateComplete hs, atPeriodEnd_due hc ht hst hdue, periods_sweep hk, if_pos hp]
    · rw [hframe]
    · rw [hframe]
    · rw [hframe]
    · rw [hframe]
    · rw [hframe]
    · rw [hframe]
    · exact stage_settleStage_remaining h _
    · have hdegraded : (s.newEvaluation c.work).degraded =
          decide ((s.policy c.work.pair).clipLimit < s.clipCount) := by rw [hframe]
      refine (stage_settleStage_done h _).trans ?_
      rw [stageAfterSegments_eq, sweepKind_sweep hk, hdegraded]
      exact if_congr (or_iff_right Bool.false_ne_true) rfl rfl
  · rw [exec_settlePeriodEnd hs, atPeriodEnd_early hc ht hlt]
  · rw [exec_integratePeriodEnd hs, atPeriodEnd_early hc ht hlt]
  · rw [exec_integrateComplete hs, atPeriodEnd_early hc ht hlt]

/-! ### The frame and the round trip -/

theorem busy_iff {op : Operation} : op.busy = true ↔ op = .pumpSwap ∨ op = .pumpRestore := by
  cases op <;> simp [Operation.busy]

section FrameEnds

variable {s : State} (hs : s.resetAsserted = false)
include hs

theorem exec_frameBitPeriodEnd : exec .frameBitPeriodEnd s = .next (s.atPeriodEnd .commandTx fun _ t =>
    if t.ends + 1 < 32 then { s with chipTimer := some t.takeEnd, cmu := { s.cmu with bit := s.cmu.bit + 1 } }
    else s) := by
  change execFrameBitPeriodEnd s = _
  rw [execFrameBitPeriodEnd, live_next hs]

theorem exec_frameEnd : exec .frameEnd s = .next (s.atPeriodEnd .commandTx fun c t =>
    if t.ends + 1 < 32 then s
    else { s with chipTimer := some t.takeEnd, cmu := { s.cmu with phase := .roundTrip }
                  current := some { c with state := c.work.operation.waitState } }) := by
  change execFrameEnd s = _
  rw [execFrameEnd, live_next hs]

/-- ROUND_TRIP_END with work current and the chip timer running (R126). -/
theorem exec_roundTripEnd {c : Current} {t : ChipTimer} (hc : s.current = some c) (ht : s.chipTimer = some t) :
    exec .roundTripEnd s = .next (if s.cmu.phase = .roundTrip ∧ s.firstInstant c.len ≤ t.index then
      s.openIntervals c.work.operation else s) := by
  change execRoundTripEnd s = _
  rw [execRoundTripEnd, live_next hs, hc, ht]

end FrameEnds

theorem firstInstant_eq {s : State} {g : Segment} (h : s.allocation = [g]) (len : Nat) :
    s.firstInstant len = 33 * len + g.centre := by rw [State.firstInstant, State.commandLag, h]

theorem clearSegments_single (m : Memory Cell) (g : Segment) :
    clearSegments m [g] = Memory.clearRange m g.first g.width := rfl

/-- Settles O54: a period end moves the frame, the first instant of interval 1 opens it, and the outputs follow the state. -/
theorem frameAndRoundTripAreTimed : Obligations.FrameAndRoundTripAreTimed := by
  refine ⟨fun s c timer hrun hdue => ?frame, fun s c timer g hs hc ht hp ha => ?roundTrip, fun s hc => ?quiet,
    fun s c hc => ?outputs⟩
  case frame =>
    obtain ⟨hs, hc, hst, ht⟩ := hrun
    refine ⟨fun hlt => ⟨?_, ?_⟩, fun hge => ⟨?_, ?_⟩⟩
    · rw [exec_frameBitPeriodEnd hs, atPeriodEnd_due hc ht hst hdue, if_pos hlt]; rfl
    · rw [exec_frameEnd hs, atPeriodEnd_due hc ht hst hdue, if_pos hlt]
    · rw [exec_frameBitPeriodEnd hs, atPeriodEnd_due hc ht hst hdue, if_neg (Nat.not_lt.mpr hge)]
    · have hwait : c.work.operation.waitState = if c.work.operation = .pumpSwap ∨ c.work.operation = .pumpRestore
          then .busyWait else .responseWait := if_congr busy_iff rfl rfl
      rw [exec_frameEnd hs, atPeriodEnd_due hc ht hst hdue, if_neg (Nat.not_lt.mpr hge), hwait]
      rfl
  case roundTrip =>
    refine ⟨fun hlt => ?_, fun hge => ⟨s.openIntervals c.work.operation, ?_, fun k => ?_, ?_⟩⟩
    · rw [exec_roundTripEnd hs hc ht, firstInstant_eq ha, if_neg fun h => absurd h.2 (Nat.not_le.mpr hlt)]
    · rw [exec_roundTripEnd hs hc ht, firstInstant_eq ha, if_pos ⟨hp, hge⟩]
    · have hread := Memory.read_clearRange cellDefault s.cells g.first g.width k
      rw [← clearSegments_single, ← ha] at hread
      exact hread
    · have hfirst : c.work.operation.firstPhase = if c.work.operation = .pumpSwap ∨ c.work.operation = .pumpRestore
          then .readySearch else .startSearch := if_congr busy_iff rfl rfl
      rw [State.openIntervals, hfirst]
  case quiet =>
    refine ⟨if_neg ?_, ?_⟩
    · rw [State.onLine, hc]
      decide
    · rw [State.tone, inState_of_none hc]
      rfl
  case outputs =>
    have honLine := onLine_of_current hc
    have hin := inState_of_current hc .commandTx
    refine ⟨fun hst => if_pos ?_, fun hst => if_neg ?_, fun cap hst hcap => ?_, fun hst => ?_⟩
    · rw [honLine]
      simp only [List.mem_cons, List.not_mem_nil, or_false] at hst
      rcases hst with h | h | h | h | h | h <;> rw [h] <;> rfl
    · rw [honLine]
      simp only [List.mem_cons, List.not_mem_nil, or_false] at hst
      rcases hst with h | h | h <;> rw [h] <;> decide
    · rw [State.tone, hin, hst, hcap]
      rfl
    · rw [State.tone, hin, decide_eq_false hst]
      rfl

end Sys2Proof.Machine
end

section
/-! SUPPORT. The strobe: accumulation, response intervals and the sequence generator. -/

namespace Sys2Proof.Machine

/-! ### Accumulation -/

section Accumulate

variable (s : State) (len n : Nat) (x : Sample)

theorem read_accumulateSegment (g : Segment) (k : Nat) :
    Memory.read cellDefault (s.accumulateSegment len n x g).cells k =
      if k ∈ g.cells then (Memory.read cellDefault s.cells k).add (s.cellProduct len n x g k)
      else Memory.read cellDefault s.cells k :=
  Memory.read_update cellDefault (fun k c => c.add (s.cellProduct len n x g k)) g.cells (segment_cells_nodup g) s.cells k

/-- A cell outside the segments keeps its contents. -/
theorem read_accumulate_outside {l : List Segment} {k : Nat} (hk : k ∉ l.flatMap Segment.cells) :
    Memory.read cellDefault (s.accumulate len n x l).cells k = Memory.read cellDefault s.cells k := by
  induction l generalizing s with
  | nil => rfl
  | cons g l ih =>
    rw [List.flatMap_cons, List.mem_append, not_or] at hk
    rw [State.accumulate, ih _ hk.2, read_accumulateSegment, if_neg hk.1]

/-- A cell of a segment takes one product, when no two segments share a cell (R60, R63). -/
theorem read_accumulate_inside {l : List Segment} (hl : (l.flatMap Segment.cells).Nodup) {g : Segment} (hg : g ∈ l)
    {k : Nat} (hk : k ∈ g.cells) : Memory.read cellDefault (s.accumulate len n x l).cells k =
      (Memory.read cellDefault s.cells k).add (s.cellProduct len n x g k) := by
  induction l generalizing s with
  | nil => cases hg
  | cons b l ih =>
    rw [List.flatMap_cons, List.nodup_append'] at hl
    obtain ⟨-, hrest, hdisjoint⟩ := hl
    rw [State.accumulate]
    cases hg with
    | head => rw [read_accumulate_outside _ _ _ _ (hdisjoint hk), read_accumulateSegment, if_pos hk]
    | tail _ hg =>
      have hb : k ∉ b.cells := fun h => hdisjoint h (List.mem_flatMap.mpr ⟨g, hg, hk⟩)
      rw [ih _ hrest hg, read_accumulateSegment, if_neg hb]
      rfl

end Accumulate

/-! ### The strobe -/

section Strobe

variable {s : State} {c : Current} {t : ChipTimer}

theorem exec_sampleStrobe (hs : s.resetAsserted = false) (hc : s.current = some c) (ht : s.chipTimer = some t)
    (hw : s.strobeWaits c t = false) (x : Sample) : exec (.sampleStrobe x) s = .next (s.strobe c t x) := by
  change execSampleStrobe x s = _
  rw [execSampleStrobe, live_next hs, hc, ht]
  exact congrArg _ (if_neg (by rw [hw]; decide))

theorem exec_sampleStrobe_stopped (ht : s.chipTimer = none) (x : Sample) : exec (.sampleStrobe x) s = .next s := by
  change execSampleStrobe x s = _
  rw [execSampleStrobe, live_same]
  cases s.current with
  | none => rfl
  | some c => rw [ht]

theorem deliver_integrate (hst : c.state = .integrate) (n : Nat) (x : Sample) : s.deliver c n x =
    ({ s with clipCount := clipAfter s.clipCount x } : State).accumulate c.len n x s.allocation := by
  rw [State.deliver, hst]

/-- In SETTLE, in COMMAND_TX and in the round trip a sample is dropped (R11). -/
theorem deliver_dropped (h : c.state = .settle ∨ c.state = .commandTx ∨
    (c.state = .responseWait ∨ c.state = .busyWait) ∧ s.cmu.phase = .roundTrip) (n : Nat) (x : Sample) :
    s.deliver c n x = s := by
  unfold State.deliver
  rcases h with h | h | ⟨h | h, hp⟩
  · rw [h]
  · rw [h]
  · rw [h, hp]; rfl
  · rw [h, hp]; rfl

theorem deliver_interval (hst : c.state = .responseWait ∨ c.state = .busyWait ∨ c.state = .responseRx)
    (hp : s.cmu.phase = .readySearch ∨ s.cmu.phase = .startSearch ∨ s.cmu.phase = .data) (n : Nat) (x : Sample) :
    s.deliver c n x = s.intervalSample c.len n x := by
  have hopen : s.cmu.phase.intervalOpen = true := by rcases hp with h | h | h <;> rw [h] <;> rfl
  unfold State.deliver
  rcases hst with h | h | h <;> rw [h] <;> exact if_pos hopen

theorem clipAfter_eq (count : Nat) (x : Sample) :
    clipAfter count x = if x.toInt = -2048 ∨ x.toInt = 2047 then min 65535 (count + 1) else count :=
  if_congr decide_eq_true_iff rfl rfl

end Strobe

/-- The cell's lag is that of its place in the segment (R61). -/
theorem cellProduct_eq (s : State) (len n : Nat) (x : Sample) (g : Segment) (w : Nat) :
    s.cellProduct len n x g (g.first + w) = product x (s.chipAt len n (g.lag w)) := by
  rw [State.cellProduct, Nat.add_sub_cancel_left]

/-- Settles O41: each cell takes its product once, and the instant ends. -/
theorem strobeAccumulatesInIntegrate : Obligations.StrobeAccumulatesInIntegrate := by
  intro s c timer x hrun hearly hnodup n chip
  obtain ⟨hs, hc, hst, ht⟩ := hrun
  have hwaits : s.strobeWaits c timer = false := by
    rw [State.strobeWaits, hst]
    exact decide_eq_false (Nat.not_le.mpr hearly)
  let u : State := { s.recordChip c.len n with clipCount := clipAfter s.clipCount x }
  have hdeliver : (s.recordChip c.len n).deliver c n x = u.accumulate c.len n x s.allocation := deliver_integrate hst n x
  have hframe := accumulate_frame u c.len n x s.allocation
  have hinside {g : Segment} (hg : g ∈ s.allocation) {k : Nat} (hk : k ∈ g.cells) :=
    read_accumulate_inside u c.len n x hnodup hg hk
  have houtside {k : Nat} (hk : k ∉ s.allocation.flatMap Segment.cells) := read_accumulate_outside u c.len n x hk
  have hexec : exec (.sampleStrobe x) s = .next ((u.accumulate c.len n x s.allocation).nextInstant timer) := by
    rw [exec_sampleStrobe hs hc ht hwaits, State.strobe, hdeliver]
  generalize u.accumulate c.len n x s.allocation = v at *
  have hchips : v.chipHistory = u.chipHistory := by rw [hframe]
  refine ⟨_, hexec, fun j => ?chips, fun g hg w hw => ?inside, fun k hk => houtside hk, ?clip, ?generator, rfl, ?frame⟩
  case chips =>
    change Memory.read chipDefault v.chipHistory j = _
    rw [hchips]
    exact Memory.read_write ..
  case inside =>
    intro old lag sent sum
    have hmem : g.first + w ∈ g.cells := mem_segment_cells.mpr ⟨Nat.le_add_right _ _, Nat.add_lt_add_left hw _⟩
    have hsent : sent = u.chipAt c.len n (g.lag w) := by
      change Memory.read chipDefault v.chipHistory _ = _
      rw [hchips]
      rfl
    have hsum : sum = old.value + product x (u.chipAt c.len n (g.lag w)) := by rw [← hsent]; rfl
    refine (hinside hg hmem).trans ?_
    rw [cellProduct_eq, hsum]
    rfl
  case clip =>
    change v.clipCount = _
    rw [hframe]
    exact clipAfter_eq ..
  case generator =>
    change v.generator.shift = _
    rw [hframe]
    rfl
  case frame =>
    rw [hframe]
    rfl

/-! ### Response intervals -/

section Interval

variable {s : State} {cap : Captured} {g : Segment} {len next : Nat}
  (hcap : s.cmu.captured = some cap) (ha : s.allocation = [g])
include hcap ha

theorem closeInterval_closes (h : next = 33 * len + g.centre + s.cmu.interval * (cap.periods * len)) :
    s.closeInterval len next = { s with
      intervals := s.intervals ++ [⟨s.cmu.interval, s.cellValues g⟩]
      cells := Memory.clearRange s.cells g.first g.width
      cmu := { s.cmu with interval := s.cmu.interval + 1 } } := by
  rw [State.closeInterval, hcap, ha]
  exact if_pos (by rw [firstInstant_eq ha]; exact h)

theorem closeInterval_open (h : next ≠ 33 * len + g.centre + s.cmu.interval * (cap.periods * len)) :
    s.closeInterval len next = s := by
  rw [State.closeInterval, hcap, ha]
  exact if_neg (by rw [firstInstant_eq ha]; exact h)

end Interval

theorem cellValues_eq (s : State) (g : Segment) : s.cellValues g =
    (List.range g.width).map fun w => (Memory.read cellDefault s.cells (g.first + w)).value := by
  rw [State.cellValues, Segment.cells, List.map_map]
  exact List.map_congr_left fun w _ => by rw [Function.comp_apply, Nat.add_comm]

/-- Settles O42: dropped samples, no strobe with the timer stopped, and the open interval. -/
theorem strobeOutsideIntegrate : Obligations.StrobeOutsideIntegrate := by
  refine ⟨⟨fun s c timer x hs hc ht hwaits hst => ?dropped, fun s x ht => exec_sampleStrobe_stopped ht x⟩, ?interval⟩
  case dropped =>
    rw [exec_sampleStrobe hs hc ht hwaits, State.strobe, deliver_dropped (s := s.recordChip c.len timer.index) hst]
    rfl
  case interval =>
    intro s c timer x cap g hs hc ht hst hp hcap ha n closes u
    have hwaits : s.strobeWaits c timer = false := by
      have hne : decide (s.cmu.phase = .roundTrip) = false :=
        decide_eq_false (by rcases hp with h | h | h <;> rw [h] <;> decide)
      unfold State.strobeWaits
      rcases hst with h | h | h <;> rw [h]
      · exact congrArg (· && _) hne
      · exact congrArg (· && _) hne
    have hdeliver : (s.recordChip c.len n).deliver c n x = u.closeInterval c.len (n + 1) := by
      rw [deliver_interval (s := s.recordChip c.len n) hst hp, State.intervalSample,
        show (s.recordChip c.len n).allocation = [g] from ha]
      rfl
    have hexec : exec (.sampleStrobe x) s = .next ((u.closeInterval c.len (n + 1)).nextInstant timer) := by
      rw [exec_sampleStrobe hs hc ht hwaits, State.strobe, hdeliver]
    by_cases hclose : closes
    · have hclosed := closeInterval_closes (s := u) hcap ha hclose
      rw [cellValues_eq] at hclosed
      rw [hexec, hclosed]
      refine ⟨_, rfl, rfl, rfl, rfl, rfl, fun h => absurd hclose h, fun _ => ⟨rfl, fun w hw => ?_, rfl⟩, rfl⟩
      refine (Memory.read_clearRange ..).trans (if_pos ⟨Nat.le_add_right _ _, Nat.add_lt_add_left hw _⟩)
    · have hopen := closeInterval_open (s := u) hcap ha hclose
      rw [hexec, hopen]
      exact ⟨_, rfl, rfl, rfl, rfl, rfl, fun _ => ⟨rfl, rfl, rfl⟩, fun h => absurd h hclose, rfl⟩

/-! ### The sequence generator -/

section Generator

variable {g : Generator}

/-- The register holds m bits: bit i of a shift comes from bit i - 1, and bit 0 is the feedback (R4). -/
theorem getLsbD_shift (hm : g.m ≤ 15) (i : Nat) : g.shift.stages.getLsbD i =
    (decide (i < g.m) && if i = 0 then g.feedback else g.stages.getLsbD (i - 1)) := by
  have hmask : (BitVec.ofNat 15 (seqLength g.m)).getLsbD i = decide (i < g.m) := by
    rw [BitVec.getLsbD_ofNat, seqLength, Nat.testBit_two_pow_sub_one]
    by_cases h : i < g.m
    · rw [decide_eq_true h, decide_eq_true (by omega : i < 15)]; rfl
    · rw [decide_eq_false h, Bool.and_false]
  have hbit : (BitVec.ofNat 15 g.feedback.toNat).getLsbD i = (decide (i = 0) && g.feedback) := by
    cases g.feedback
    · simp
    · cases i <;> simp
  change ((g.stages <<< 1 ||| BitVec.ofNat 15 g.feedback.toNat) &&& BitVec.ofNat 15 (seqLength g.m)).getLsbD i = _
  rw [BitVec.getLsbD_and, BitVec.getLsbD_or, hmask, hbit, BitVec.getLsbD_shiftLeft]
  by_cases h : i < g.m
  · cases i with
    | zero => simp [h]
    | succ i =>
      have h15 : i + 1 < 15 := by omega
      simp [h, h15]
  · rw [decide_eq_false h, Bool.and_false, Bool.false_and]

theorem stage_shift_succ (hm : g.m ≤ 15) {k : Nat} (h1 : 1 ≤ k) (hk : k < g.m) : g.shift.stage (k + 1) = g.stage k := by
  obtain ⟨k, rfl⟩ := Nat.exists_eq_add_of_le' h1
  rw [Generator.stage, Nat.add_sub_cancel, getLsbD_shift hm, decide_eq_true hk, if_neg (Nat.succ_ne_zero k)]
  rfl

theorem stage_shift_one (hm : g.m ≤ 15) (h0 : 0 < g.m) : g.shift.stage 1 = g.feedback := by
  rw [Generator.stage, getLsbD_shift hm, decide_eq_true h0, if_pos rfl, Bool.true_and]

theorem feedback_eq (h : 11 ≤ g.m) (hm : g.m ≤ 15) : g.feedback = (match g.m with
      | 11 => g.stage 11 ^^ g.stage 9
      | 12 => g.stage 12 ^^ g.stage 11 ^^ g.stage 10 ^^ g.stage 4
      | 13 => g.stage 13 ^^ g.stage 12 ^^ g.stage 11 ^^ g.stage 8
      | 14 => g.stage 14 ^^ g.stage 13 ^^ g.stage 12 ^^ g.stage 2
      | _ => g.stage 15 ^^ g.stage 14) := by
  unfold Generator.feedback
  obtain h | h | h | h | h : g.m = 11 ∨ g.m = 12 ∨ g.m = 13 ∨ g.m = 14 ∨ g.m = 15 := by omega
  all_goals
    rw [h]
    simp [tapStages]

end Generator

/-- After n shifts from all ones, the stages above n still hold ones (R4). -/
theorem stage_repeat_shift {m : Nat} (k : Nat) (hm : m ≤ 15) (n : Nat) :
    let g := Nat.repeat Generator.shift n { m := m, k := k, stages := BitVec.ofNat 15 (2 ^ m - 1) }
    g.m = m ∧ ∀ i, n < i → i ≤ m → g.stage i = true := by
  induction n with
  | zero =>
    refine ⟨rfl, fun i h0 hi => ?_⟩
    change (BitVec.ofNat 15 (2 ^ m - 1)).getLsbD (i - 1) = true
    rw [BitVec.getLsbD_ofNat, Nat.testBit_two_pow_sub_one, decide_eq_true (by omega : i - 1 < 15),
      decide_eq_true (by omega : i - 1 < m)]
    rfl
  | succ n ih =>
    obtain ⟨hgm, hones⟩ := ih
    refine ⟨hgm, fun i hn hi => ?_⟩
    obtain ⟨i, rfl⟩ := Nat.exists_eq_add_of_le' (Nat.one_le_of_lt hn)
    rw [Nat.repeat, stage_shift_succ (hgm.symm ▸ hm) (by omega) (hgm.symm ▸ hi)]
    exact hones i (by omega) (by omega)

/-- Settles O43: the feedback enters stage 1, the others move on, and the ones leave stage m one by one. -/
theorem generatorShiftsThroughItsTaps : Obligations.GeneratorShiftsThroughItsTaps := by
  refine ⟨fun g h hm => ⟨fun k h1 hk => stage_shift_succ hm h1 hk, ?taps, rfl, rfl⟩, fun m k n h hm hn => ?ones⟩
  case taps => exact (stage_shift_one hm (by omega)).trans (feedback_eq h hm)
  case ones =>
    obtain ⟨hgm, hones⟩ := stage_repeat_shift k hm n
    rw [Generator.chip, hgm]
    exact hones m hn (Nat.le_refl m)

end Sys2Proof.Machine
end

section
/-! SUPPORT. The bits of a frame and of a response, and the intervals read in their phase. -/

namespace Sys2Proof.Machine

/-! ### Nibbles in the order of sending -/

theorem getElem?_nibbleBits (o : BitOrder) (n : Nat) {j : Nat} (hj : j < 4) :
    (nibbleBits o n)[j]? = some (n.testBit (if o = .msbFirst then 3 - j else j)) := by
  match j, hj with
  | 0, _ | 1, _ | 2, _ | 3, _ => cases o <;> rfl

theorem length_nibbleBits (o : BitOrder) (n : Nat) : (nibbleBits o n).length = 4 := by cases o <;> rfl

theorem getElem?_nibbleSequence (n : NibbleOrder) {i : Nat} (hi : i < 6) :
    (nibbleSequence n)[i]? = some (if n = .highFirst then 5 - i else i) := by
  match i, hi with
  | 0, _ | 1, _ | 2, _ | 3, _ | 4, _ | 5, _ => cases n <;> rfl

/-- Where the pieces all have four elements, element 4 i + j is element j of piece i. -/
theorem getElem?_flatMap_four {α β : Type} {f : α → List β} (hf : ∀ a, (f a).length = 4) {l : List α} {i : Nat} {a : α}
    (hi : l[i]? = some a) {j : Nat} (hj : j < 4) : (l.flatMap f)[4 * i + j]? = (f a)[j]? := by
  induction l generalizing i with
  | nil => cases hi
  | cons b l ih =>
    rw [List.flatMap_cons]
    cases i with
    | zero =>
      obtain rfl := Option.some.inj hi
      rw [Nat.mul_zero, Nat.zero_add, List.getElem?_append_left (by rw [hf]; exact hj)]
    | succ i =>
      rw [List.getElem?_append_right (by rw [hf]; omega), hf, show 4 * (i + 1) + j - 4 = 4 * i + j by omega]
      exact ih hi

/-- Nibble k of a number (R124). -/
theorem testBit_nibble (frame k : Nat) {r : Nat} (hr : r < 4) :
    (frame / 16 ^ k % 16).testBit r = frame.testBit (4 * k + r) := by
  have h16 : 16 ^ k = 2 ^ (4 * k) := by rw [Nat.pow_mul]
  rw [h16, Nat.testBit_mod_two_pow _ 4, decide_eq_true hr, Bool.true_and, Nat.testBit_div_two_pow, Nat.add_comm]

/-- The bits of a frame as they are sent (R124). -/
theorem getElem?_transmission (b : BitOrder) (n : NibbleOrder) (frame : Nat) {i j : Nat} (hi : i < 6) (hj : j < 4) :
    (transmission b n frame)[8 + 4 * i + j]? = some (frame.testBit
      (4 * (if n = .highFirst then 5 - i else i) + (if b = .msbFirst then 3 - j else j))) := by
  have hbit : (if b = .msbFirst then 3 - j else j) < 4 := by split <;> omega
  have hpreamble : preamble.length = 8 := rfl
  rw [transmission, List.getElem?_append_right (by rw [hpreamble]; omega), hpreamble,
    show 8 + 4 * i + j - 8 = 4 * i + j by omega,
    getElem?_flatMap_four (fun _ => length_nibbleBits _ _) (getElem?_nibbleSequence n hi) hj, getElem?_nibbleBits _ _ hj,
    testBit_nibble _ _ hbit]

theorem length_transmission (b : BitOrder) (n : NibbleOrder) (frame : Nat) : (transmission b n frame).length = 32 := by
  cases b <;> cases n <;> rfl

/-! ### Nibbles read back -/

theorem testBit_four_bits (b0 b1 b2 b3 : Bool) {r : Nat} (hr : r < 4) :
    (b0.toNat + b1.toNat * 2 + b2.toNat * 4 + b3.toNat * 8).testBit r = [b0, b1, b2, b3].getD r false := by
  revert b0 b1 b2 b3
  match r, hr with
  | 0, _ | 1, _ | 2, _ | 3, _ => decide

theorem testBit_nibbleValue (o : BitOrder) (bits : List Bool) {r : Nat} (hr : r < 4) :
    (nibbleValue o bits).testBit r = bits.getD (if o = .msbFirst then 3 - r else r) false := by
  cases o with
  | lsbFirst =>
    refine (testBit_four_bits _ _ _ _ hr).trans ?_
    match r, hr with
    | 0, _ | 1, _ | 2, _ | 3, _ => rfl
  | msbFirst =>
    have hsum : nibbleValue .msbFirst bits = (bits.getD 3 false).toNat + (bits.getD 2 false).toNat * 2 +
        (bits.getD 1 false).toNat * 4 + (bits.getD 0 false).toNat * 8 := by
      unfold nibbleValue
      dsimp only
      omega
    rw [hsum]
    refine (testBit_four_bits _ _ _ _ hr).trans ?_
    match r, hr with
    | 0, _ | 1, _ | 2, _ | 3, _ => rfl

theorem nibbleValue_lt (o : BitOrder) (bits : List Bool) : nibbleValue o bits < 16 := by
  have h (i : Nat) := Bool.toNat_le (bits.getD i false)
  have h0 := h 0
  have h1 := h 1
  have h2 := h 2
  have h3 := h 3
  cases o <;> simp only [nibbleValue] <;> omega

/-- The bits of four nibbles put together, `d` the lowest. -/
theorem testBit_four_nibbles {a b c d : Nat} (hb : b < 16) (hc : c < 16) (hd : d < 16) {p r : Nat} (hp : p < 4)
    (hr : r < 4) : (a * 4096 + b * 256 + c * 16 + d).testBit (4 * p + r) = ([d, c, b, a].getD p 0).testBit r := by
  have hsplit (x : Nat) {y : Nat} (hy : y < 16) (k : Nat) :
      (x * 16 + y).testBit k = if k < 4 then y.testBit k else x.testBit (k - 4) := by
    rw [Nat.mul_comm]
    exact Nat.testBit_two_pow_mul_add (i := 4) x hy k
  have hsum : a * 4096 + b * 256 + c * 16 + d = ((a * 16 + b) * 16 + c) * 16 + d := by omega
  rw [hsum]
  match p, hp with
  | 0, _ => rw [hsplit _ hd, if_pos (by omega), Nat.mul_zero, Nat.zero_add]; rfl
  | 1, _ =>
    rw [hsplit _ hd, if_neg (by omega), hsplit _ hc, if_pos (by omega), show 4 * 1 + r - 4 = r by omega]; rfl
  | 2, _ =>
    rw [hsplit _ hd, if_neg (by omega), hsplit _ hc, if_neg (by omega), hsplit _ hb, if_pos (by omega),
      show 4 * 2 + r - 4 - 4 = r by omega]
    rfl
  | 3, _ =>
    rw [hsplit _ hd, if_neg (by omega), hsplit _ hc, if_neg (by omega), hsplit _ hb, if_neg (by omega),
      show 4 * 3 + r - 4 - 4 - 4 = r by omega]
    rfl

/-- Nibble i of word k of a response, in the order of arrival (R131). -/
def responseNibble (b : BitOrder) (bits : List Bool) (k i : Nat) : Nat :=
  nibbleValue b ((bits.drop (16 * k + 4 * i)).take 4)

theorem responseNibble_lt (b : BitOrder) (bits : List Bool) (k i : Nat) : responseNibble b bits k i < 16 :=
  nibbleValue_lt ..

theorem getLsbD_responseWord (b : BitOrder) (n : NibbleOrder) (bits : List Bool) (k : Nat) {i r : Nat} (hi : i < 4)
    (hr : r < 4) : (responseWord b n bits k).getLsbD (4 * (if n = .highFirst then 3 - i else i) + r) =
      (responseNibble b bits k i).testBit r := by
  have hlt := responseNibble_lt b bits k
  have hword (x : Nat) {p : Nat} (hp : p < 4) : (word x).getLsbD (4 * p + r) = x.testBit (4 * p + r) := by
    rw [word, BitVec.getLsbD_ofNat, decide_eq_true (by omega : 4 * p + r < 16), Bool.true_and]
  cases n with
  | highFirst =>
    have hp : 3 - i < 4 := by omega
    rw [if_pos rfl]
    refine (hword _ hp).trans ((testBit_four_nibbles (hlt 1) (hlt 2) (hlt 3) hp hr).trans ?_)
    match i, hi with
    | 0, _ | 1, _ | 2, _ | 3, _ => rfl
  | lowFirst =>
    have hsum : responseNibble b bits k 0 + responseNibble b bits k 1 * 16 + responseNibble b bits k 2 * 256 +
        responseNibble b bits k 3 * 4096 = responseNibble b bits k 3 * 4096 + responseNibble b bits k 2 * 256 +
          responseNibble b bits k 1 * 16 + responseNibble b bits k 0 := by omega
    rw [if_neg (by decide)]
    refine (hword _ hi).trans ((congrArg (Nat.testBit · _) hsum).trans
      ((testBit_four_nibbles (hlt 2) (hlt 1) (hlt 0) hi hr).trans ?_))
    match i, hi with
    | 0, _ | 1, _ | 2, _ | 3, _ => rfl

/-- The bits of a response are those read back (R131). -/
theorem getElem?_response (b : BitOrder) (n : NibbleOrder) {bits : List Bool} {k : Nat} (hk : 16 * k + 16 ≤ bits.length)
    {i j : Nat} (hi : i < 4) (hj : j < 4) : bits[16 * k + 4 * i + j]? = some ((responseWord b n bits k).getLsbD
      (4 * (if n = .highFirst then 3 - i else i) + (if b = .msbFirst then 3 - j else j))) := by
  have hbit : (if b = .msbFirst then 3 - j else j) < 4 := by split <;> omega
  have hback : (if b = .msbFirst then 3 - (if b = .msbFirst then 3 - j else j) else
      (if b = .msbFirst then 3 - j else j)) = j := by split <;> omega
  have hlen : 16 * k + 4 * i + j < bits.length := by omega
  rw [getLsbD_responseWord b n bits k hi hbit, responseNibble, testBit_nibbleValue _ _ hbit, hback, List.getD_eq_getElem?_getD,
    List.getElem?_take_of_lt hj, List.getElem?_drop, List.getElem?_eq_getElem hlen, Option.getD_some]

/-! ### The status word -/

theorem statusOperation_eq (w : Word) : statusOperation w = (w.extractLsb' 13 3).toNat := by
  have := w.isLt
  rw [BitVec.extractLsb'_toNat, Nat.shiftRight_eq_div_pow, statusOperation]
  omega

theorem statusPair_eq (w : Word) : statusPair w = (w.extractLsb' 10 3).toNat := by
  rw [BitVec.extractLsb'_toNat, Nat.shiftRight_eq_div_pow, statusPair]

theorem statusResult_eq (w : Word) : statusResult w = (w.extractLsb' 8 2).toNat := by
  rw [BitVec.extractLsb'_toNat, Nat.shiftRight_eq_div_pow, statusResult]

theorem statusAddress_eq (w : Word) : statusAddress w = (w.extractLsb' 0 7).toNat := by
  rw [BitVec.extractLsb'_toNat, Nat.shiftRight_zero, statusAddress]

theorem statusResult_lt (w : Word) : statusResult w < 4 := Nat.mod_lt _ (by decide)

section Status

variable {op : Operation} {pair : Pair} {address : Nat} {w : Word}

theorem statusOutcome_fields (h : statusOperation w = op.code ∧ statusPair w = pair.val ∧ statusAddress w = address % 128) :
    statusOutcome op pair address w = if statusResult w = 0 then .done else if statusResult w = 1 then .refusedByRepeater
      else if statusResult w = 2 then .repeaterFault else .mismatch := by
  rw [statusOutcome, if_pos h]
  have hlt := statusResult_lt w
  generalize statusResult w = r at *
  match r, hlt with
  | 0, _ | 1, _ | 2, _ | 3, _ => rfl

theorem statusOutcome_other
    (h : ¬ (statusOperation w = op.code ∧ statusPair w = pair.val ∧ statusAddress w = address % 128)) :
    statusOutcome op pair address w = .mismatch := if_neg h

end Status

/-- Settles O53: bit by bit through both orders, and the status word by its fields. -/
theorem responseIsReassembledAndChecked : Obligations.ResponseIsReassembledAndChecked := by
  refine ⟨⟨fun b n frame => ⟨length_transmission .., rfl, fun i hi j hj => getElem?_transmission b n frame hi hj⟩,
    fun b n bits k hk i hi j hj => getElem?_response b n hk hi hj⟩, ?status⟩
  case status =>
    intro op pair address w passes
    have hlt := statusResult_lt w
    have hpasses : passes ↔ (statusOperation w = op.code ∧ statusPair w = pair.val ∧
        statusAddress w = address % 128) ∧ statusResult w ≠ 3 := by
      rw [statusOperation_eq, statusPair_eq, statusResult_eq, statusAddress_eq, and_assoc, and_assoc]
    rw [hpasses, ← statusResult_eq]
    refine ⟨fun hfail => ?_, fun ⟨hfields, h3⟩ => ?_, statusPump_eq w⟩
    · by_cases hfields : statusOperation w = op.code ∧ statusPair w = pair.val ∧ statusAddress w = address % 128
      · have h3 : statusResult w = 3 := by
          by_contra h3
          exact hfail ⟨hfields, h3⟩
        rw [statusOutcome_fields hfields, h3]
        rfl
      · exact statusOutcome_other hfields
    · rw [statusOutcome_fields hfields]
      by_cases h0 : statusResult w = 0
      · rw [if_pos h0, if_pos h0]
      · by_cases h1 : statusResult w = 1
        · rw [if_neg h0, if_neg h0, if_pos h1, if_pos h1]
        · rw [if_neg h0, if_neg h0, if_neg h1, if_neg h1, if_pos (by omega)]

/-! ### Intervals in their phase -/

section Classified

variable {s : State} {c : Current} {cap : Captured} {i : Interval} {rest : List Interval}

theorem headInterval_of (hc : s.current = some c) (hcap : s.cmu.captured = some cap) (hi : s.intervals = i :: rest) :
    s.headInterval = some (i, c, cap) := by rw [State.headInterval, hi, hc, hcap]

theorem exec_intervalClassified (hs : s.resetAsserted = false) (hc : s.current = some c)
    (hcap : s.cmu.captured = some cap) (hi : s.intervals = i :: rest) : exec .intervalClassified s =
      .next (({ s with intervals := rest } : State).classifiedInterval c cap i.number
        (intervalLit cap c.len i.values)) := by
  change execIntervalClassified s = _
  rw [execIntervalClassified, live_next hs, headInterval_of hc hcap hi, hi]
  rfl

theorem exec_busyTimeout (hs : s.resetAsserted = false) (hc : s.current = some c)
    (hcap : s.cmu.captured = some cap) (hi : s.intervals = i :: rest) : exec .busyTimeout s =
      .next (if s.cmu.timesOut cap i.number (intervalLit cap c.len i.values) then
        ({ s with intervals := rest } : State).attemptEnds c cap .busyTimeout none none else s) := by
  change execBusyTimeout s = _
  rw [execBusyTimeout, live_next hs, headInterval_of hc hcap hi, hi]
  rfl

theorem ready_iff {u : CommandUnit} {number : Nat} {lit : Bool} :
    u.ready number lit = true ↔ lit = true ∧ u.litRun = true ∧ 2 ≤ number := by
  rw [CommandUnit.ready, Bool.and_eq_true, Bool.and_eq_true, decide_eq_true_iff, and_assoc]

theorem timesOut_iff {u : CommandUnit} {number : Nat} {lit : Bool} (hp : u.phase = .readySearch) :
    u.timesOut cap number lit = true ↔ ¬ u.ready number lit = true ∧ number = cap.busyLimit := by
  rw [CommandUnit.timesOut, Bool.and_eq_true, Bool.and_eq_true, decide_eq_true_iff, decide_eq_true_iff,
    Bool.not_eq_true', Bool.not_eq_true, and_iff_right hp]

theorem retries_iff {o : WorkOutcome} : o.retries = true ↔ o = .noResponse ∨ o = .mismatch := by
  cases o <;> simp [WorkOutcome.retries]

theorem dataIntervals_eq (op : Operation) : op.dataIntervals = if op = .readTelemetry then 64 else 16 := by
  cases op <;> rfl

end Classified

/-- Settles O55: the phase of the Command Unit says what the oldest interval does. -/
theorem intervalsAreReadInPhase : Obligations.IntervalsAreReadInPhase := by
  refine ⟨?phases, fun s c cap o status telemetry => ⟨fun h => ?retry, fun h => ?ends⟩⟩
  case retry => exact if_pos (by rw [Bool.and_eq_true, retries_iff, decide_eq_true_iff]; exact h)
  case ends => exact if_neg (by rw [Bool.and_eq_true, retries_iff, decide_eq_true_iff]; exact h)
  case phases =>
    intro s c cap i rest hs hc hcap hi level lit u ready
    have hclassified := exec_intervalClassified hs hc hcap hi
    have htimeout := exec_busyTimeout hs hc hcap hi
    have hlit : intervalLit cap c.len i.values = decide lit := rfl
    rw [hlit] at hclassified htimeout
    have hready : s.cmu.ready i.number (decide lit) = true ↔ ready := by rw [ready_iff, decide_eq_true_iff]
    refine ⟨fun hp => ?ready, fun hp => ?start, fun hp => ?data⟩
    case ready =>
      have hphase : u.classifiedInterval c cap i.number (decide lit) = u.readySearch c cap i.number (decide lit) := by
        rw [State.classifiedInterval, show u.cmu.phase = .readySearch from hp]
      have hout := timesOut_iff (cap := cap) (number := i.number) (lit := decide lit) hp
      rw [hready] at hout
      rw [hclassified, htimeout, hphase]
      refine ⟨fun h => ⟨?_, ?_⟩, fun h hl => ⟨?_, ?_⟩, fun h hl => ⟨?_, ?_⟩⟩
      · exact congrArg _ (if_pos (hready.mpr h))
      · exact congrArg _ (if_neg fun ho => (hout.mp ho).1 h)
      · exact congrArg _ ((if_neg (mt hready.mp h)).trans (if_pos hl))
      · exact congrArg _ (if_pos (hout.mpr ⟨h, hl⟩))
      · exact congrArg _ ((if_neg (mt hready.mp h)).trans (if_neg hl))
      · exact congrArg _ (if_neg fun ho => hl (hout.mp ho).2)
    case start =>
      have hphase : u.classifiedInterval c cap i.number (decide lit) = u.startSearch c cap (decide lit) := by
        rw [State.classifiedInterval, show u.cmu.phase = .startSearch from hp]
      rw [hclassified, hphase]
      refine ⟨fun h => ?_, fun h hn => ?_, fun h hn => ?_⟩
      · exact congrArg _ (if_pos (by rw [decide_eq_false h]; rfl))
      · exact congrArg _ ((if_neg (by rw [decide_eq_true h]; decide)).trans (if_pos hn))
      · exact congrArg _ ((if_neg (by rw [decide_eq_true h]; decide)).trans (if_neg (Nat.not_lt.mpr hn)))
    case data =>
      intro bits op wanted part outcome
      have hphase : u.classifiedInterval c cap i.number (decide lit) = u.dataInterval c cap (decide lit) := by
        rw [State.classifiedInterval, show u.cmu.phase = .data from hp]
      have hwanted : op.dataIntervals = wanted := dataIntervals_eq op
      rw [hclassified, hphase, ← hwanted]
      exact ⟨fun h => congrArg _ (if_pos h), fun h => congrArg _ (if_neg (Nat.not_lt.mpr h))⟩

end Sys2Proof.Machine
end

section
/-! SUPPORT. The arithmetic of a segment, and the watch point actions. -/

namespace Sys2Proof.Machine

/-! ### Peak and level -/

/-- The largest value of a list with the first place that holds it (R80). -/
def IsPeak (values : List Int) (r : Int × Nat) : Prop :=
  values[r.2]? = some r.1 ∧ (∀ u ∈ values, u ≤ r.1) ∧ ∀ j u, j < r.2 → values[j]? = some u → u < r.1

theorem isPeak_append_le {seen : List Int} {r : Int × Nat} {v : Int} (h : IsPeak seen r) (hv : v ≤ r.1) :
    IsPeak (seen ++ [v]) r := by
  obtain ⟨hat, hmax, hfirst⟩ := h
  have hlt : r.2 < seen.length := (List.getElem?_eq_some_iff.mp hat).1
  refine ⟨(List.getElem?_append_left hlt).trans hat, fun u hu => ?_, fun j u hj hu => ?_⟩
  · obtain hu | hu := List.mem_append.mp hu
    · exact hmax u hu
    · rwa [List.mem_singleton.mp hu]
  · exact hfirst j u hj ((List.getElem?_append_left (hj.trans hlt)).symm.trans hu)

theorem isPeak_append_lt {seen : List Int} {r : Int × Nat} {v : Int} (h : IsPeak seen r) (hv : r.1 < v) :
    IsPeak (seen ++ [v]) (v, seen.length) := by
  obtain ⟨-, hmax, -⟩ := h
  refine ⟨List.getElem?_concat_length, fun u hu => ?_, fun j u hj hu => ?_⟩
  · obtain hu | hu := List.mem_append.mp hu
    · exact (hmax u hu).trans hv.le
    · exact (List.mem_singleton.mp hu).le
  · rw [List.getElem?_append_left hj] at hu
    exact (hmax u (List.mem_of_getElem? hu)).trans_lt hv

theorem isPeak_peakFrom {seen : List Int} {best : Int} {place : Nat} (h : IsPeak seen (best, place)) (l : List Int) :
    IsPeak (seen ++ l) (peakFrom best place seen.length l) := by
  induction l generalizing seen best place with
  | nil => rwa [List.append_nil]
  | cons v l ih =>
    have hlen : seen.length + 1 = (seen ++ [v]).length := by rw [List.length_append]; rfl
    rw [peakFrom, List.append_cons, hlen]
    by_cases hv : best < v
    · rw [if_pos hv]
      exact ih (isPeak_append_lt h hv)
    · rw [if_neg hv]
      exact ih (isPeak_append_le h (Int.not_lt.mp hv))

theorem isPeak_peak (v : Int) (rest : List Int) : IsPeak (v :: rest) (peak (v :: rest)) := by
  have hone : IsPeak [v] (v, 0) :=
    ⟨rfl, fun u hu => (List.mem_singleton.mp hu).le, fun j u hj => absurd hj (Nat.not_lt_zero j)⟩
  exact isPeak_peakFrom hone rest

theorem levelOf_nonpos {v : Int} (h : v ≤ 0) (periods len : Nat) : levelOf v periods len = 0 := if_pos h

theorem levelOf_natCast {n : Nat} (h : 0 < n) (periods len : Nat) : levelOf n periods len =
    if 134217728 ≤ n / periods then 32767 else min 32767 (n / periods * 16 / len) :=
  if_neg (by omega)

/-- Settles O44: the peak is kept place by place, and the level is the same quotient in the natural numbers. -/
theorem peakAndLevelOfSegment : Obligations.PeakAndLevelOfSegment := by
  refine ⟨fun v rest => isPeak_peak v rest, fun v periods len _ _ => ?level⟩
  case level =>
    by_cases h0 : v ≤ 0
    · rw [levelOf_nonpos h0]
      exact ⟨Nat.zero_le _, fun _ => rfl, fun h => absurd h0 (Int.not_le.mpr h), fun h => absurd h0 (Int.not_le.mpr h)⟩
    · obtain ⟨n, rfl⟩ := Int.eq_ofNat_of_zero_le (Int.not_le.mp h0).le
      have hpos : 0 < n := by omega
      rw [levelOf_natCast hpos, ← Int.natCast_ediv]
      refine ⟨?_, fun h => absurd h h0, fun _ h => if_pos (by exact_mod_cast h), fun _ h => ?_⟩
      · split
        · exact Nat.le_refl _
        · exact Nat.min_le_left ..
      · rw [if_neg (by omega)]
        push_cast
        rfl

/-! ### Actions of the evaluation -/

section Stage

variable {s : State} {c : Current} {e : Evaluation} {stage : EvalStage}

theorem atStage_at (h : s.evaluatingAt stage c e) (act : Current → Evaluation → State) :
    s.atStage stage act = act c e := by
  obtain ⟨-, hc, hst, he, hstage⟩ := h
  rw [State.atStage, hc, he]
  exact if_pos ⟨hst, hstage⟩

theorem State.evaluatingAt.stage_eq (h : s.evaluatingAt stage c e) : e.stage = stage := by
  obtain ⟨-, -, -, -, hstage⟩ := h
  exact hstage

/-- The measure of a segment from its cells (R66, R80, R81, R88). -/
theorem measure_eq (s : State) (g : Segment) (periods len : Nat) :
    let values := (List.range g.width).map fun w => (Memory.read cellDefault s.cells (g.first + w)).value
    s.measure g periods len = {
      level := levelOf (peak values).1 periods len
      offset := (peak values).2
      edge := decide ((peak values).2 = 0 ∨ (peak values).2 + 1 = g.width)
      saturated := (List.range g.width).any fun w => (Memory.read cellDefault s.cells (g.first + w)).marked } := by
  intro values
  have hsaturated : s.segmentSaturated g =
      (List.range g.width).any fun w => (Memory.read cellDefault s.cells (g.first + w)).marked := by
    rw [State.segmentSaturated, Segment.cells, List.any_map]
    refine congrArg (List.any _) (funext fun w => ?_)
    rw [Function.comp_apply, Nat.add_comm]
  rw [State.measure, hsaturated, cellValues_eq, edgeOf, ← Bool.decide_or]

theorem exec_watchPointAction (h : s.evaluatingAt .segments c e) {g : Segment} {rest : List Segment}
    (hr : e.remaining = g :: rest) : exec .watchPointAction s =
      .next (if g.housing = 0 then s.referenceAction c e g else s.housingAction c e g) := by
  change execWatchPointAction s = _
  rw [execWatchPointAction, live_next h.1, atStage_at h, hr]

end Stage

/-! ### The reference segment -/

theorem refTooLow_iff {p : Policy} {level : Nat} : refTooLow p level = true ↔ p.normalise = true ∧ level < p.refFloor := by
  rw [refTooLow, Bool.and_eq_true, decide_eq_true_iff]

theorem referenceAfter_eq (p : Policy) (m : Measure) (now : Time) (w : WatchPoint) : referenceAfter p m now w = { w with
    level := some m.level
    norm := if refTooLow p m.level = true then w.norm else some (normOf p.normalise m.level m.level)
    offset := m.offset, edge := m.edge, saturated := m.saturated, updated := now } := by
  unfold referenceAfter
  split <;> rfl

section AfterReference

variable {e : Evaluation} {m : Measure} (k : SweepKind)

theorem afterReference_lost (h : refTooLow e.policy m.level = true) : (e.afterReference m).settleStage k =
    { e with remaining := [], evaluated := e.evaluated + 1, saturated := e.saturated + m.saturated.toNat
             refLevel := m.level, refLost := true, stage := .finished } := by
  have hafter : e.afterReference m = { e.counted m with remaining := [], refLevel := m.level, refLost := true } := if_pos h
  rw [hafter, Evaluation.settleStage, if_pos rfl]
  rfl

theorem afterReference_kept (h : ¬ refTooLow e.policy m.level = true) : (e.afterReference m).settleStage k =
    ({ e.counted m with refLevel := m.level } : Evaluation).settleStage k := by
  rw [Evaluation.afterReference, if_neg h]

end AfterReference

/-- Settles O45: the numbers of the measure, and the evaluation by the reference test. -/
theorem referenceSegmentIsWritten : Obligations.ReferenceSegmentIsWritten := by
  intro s c e g rest h hr hg p values saturated level offset lost
  have hm : s.measure g c.work.periods c.len =
      ⟨level, offset, decide (offset = 0 ∨ offset + 1 = g.width), saturated⟩ := measure_eq ..
  have hlost : refTooLow e.policy level = true ↔ lost := refTooLow_iff
  have hexec : exec .watchPointAction s = .next (s.referenceAction c e g) := by
    rw [exec_watchPointAction h hr, if_pos hg]
  have hnorm : some (normOf e.policy.normalise level level) =
      if e.policy.normalise then some (min 65535 (level * 4096 / level)) else some level := apply_ite some ..
  rw [State.referenceAction, hm] at hexec
  refine ⟨_, _, hexec, rfl, ?same, fun q i hi hne => ?other, ?_⟩
  case same =>
    refine (wp_setWp_same ..).trans ?_
    rw [referenceAfter_eq, hnorm]
    congr 1
    exact if_congr hlost rfl rfl
  case other => exact wp_setWp_elsewhere s _ (Nat.zero_le _) hi hne
  by_cases hl : lost
  · rw [afterReference_lost _ (hlost.mpr hl)]
    exact ⟨rfl, rfl, rfl, rfl, rfl, fun _ => ⟨rfl, rfl, rfl⟩, fun h => absurd hl h, rfl⟩
  · rw [afterReference_kept _ (mt hlost.mp hl), settleStage_frame]
    have htail : e.remaining.tail = rest := by rw [hr]; rfl
    refine ⟨rfl, rfl, rfl, rfl, rfl, fun h => absurd h hl, fun _ => ⟨htail, rfl, fun hne => ?_, fun hnil => ?_⟩, rfl⟩
    · refine (stage_settleStage_remaining ?_ _).trans h.stage_eq
      rwa [← htail] at hne
    · refine (stage_settleStage_done ?_ _).trans (stageAfterSegments_eq ..)
      rwa [← htail] at hnil

end Sys2Proof.Machine
end

section
/-! SUPPORT. The action on a housing segment, and tracking. -/

namespace Sys2Proof.Machine

section Action

variable {e : Evaluation} {k : SweepKind} {m : Measure} {w : WatchPoint}

/-- The action replaces the baseline: a completed BASELINE evaluation of an unsaturated segment (R92). -/
def capturesBaseline (e : Evaluation) (k : SweepKind) (m : Measure) : Prop :=
  k = .baseline ∧ e.degraded = false ∧ m.saturated = false

/-- The watch point with the numbers of its segment (R84, R86, R88). -/
def numbered (e : Evaluation) (m : Measure) (now : Time) (w : WatchPoint) : WatchPoint :=
  { w.measured m now with norm := some (normOf e.policy.normalise m.level e.refLevel) }

theorem housingAfter_captures (h : capturesBaseline e k m) (now : Time) : housingAfter e k m now w =
    if e.policy.levelMin ≤ m.level then
      { numbered e m now w with
        baseline := some (max 1 (normOf e.policy.normalise m.level e.refLevel)), deviation := some 1024
        condition := .normal }
    else { numbered e m now w with baseline := none, deviation := none, condition := .absent } := by
  obtain ⟨hk, hd, hs⟩ := h
  rw [housingAfter]
  exact (if_pos ⟨hk, hd⟩).trans (if_neg (by rw [hs]; decide))

/-- Without a capture the action classifies; a saturated segment keeps its condition either way (R87, R93). -/
theorem housingAfter_classifies (h : ¬ capturesBaseline e k m) (now : Time) : housingAfter e k m now w =
    classified e.policy m (normOf e.policy.normalise m.level e.refLevel) (numbered e m now w) := by
  rw [housingAfter]
  by_cases hb : k = .baseline ∧ e.degraded = false
  · have hs : m.saturated = true := by
      by_contra hs
      exact h ⟨hb.1, hb.2, Bool.eq_false_iff.mpr hs⟩
    refine (if_pos hb).trans ((if_pos hs).trans ?_)
    rw [classified, if_pos hs]
    rfl
  · exact if_neg hb

theorem housingAfter_frame (e : Evaluation) (k : SweepKind) (m : Measure) (now : Time) (w : WatchPoint) :
    housingAfter e k m now w = { numbered e m now w with
      baseline := (housingAfter e k m now w).baseline, deviation := (housingAfter e k m now w).deviation
      condition := (housingAfter e k m now w).condition } := by
  by_cases h : capturesBaseline e k m
  · rw [housingAfter_captures h]
    split <;> rfl
  · rw [housingAfter_classifies h]
    rfl

theorem condition_saturated (hs : m.saturated = true) (now : Time) : (housingAfter e k m now w).condition = w.condition := by
  rw [housingAfter_classifies fun h => absurd (hs.symm.trans h.2.2) (by decide)]
  exact if_pos hs

theorem condition_classified (h : ¬ capturesBaseline e k m) (hs : m.saturated = false) (now : Time) :
    (housingAfter e k m now w).condition =
      classify e.policy m.level (deviationOf (normOf e.policy.normalise m.level e.refLevel) w.baseline) := by
  rw [housingAfter_classifies h]
  exact if_neg (by rw [hs]; decide)

end Action

section Classify

variable {p : Policy} {level : Nat}

theorem classify_absent (h : level < p.levelMin) (d : Option Nat) : classify p level d = .absent := if_pos h

theorem classify_unreferenced (h : p.levelMin ≤ level) : classify p level none = .unreferenced := if_neg (Nat.not_lt.mpr h)

theorem classify_some (h : p.levelMin ≤ level) (d : Nat) : classify p level (some d) =
    if p.watchThreshold ≤ d then .normal else if p.degradeThreshold ≤ d then .watch
    else if p.floorThreshold ≤ d then .low else .absent := if_neg (Nat.not_lt.mpr h)

end Classify

/-! ### Tracking and the record -/

theorem tracks_iff {k : SweepKind} {degraded : Bool} {m : Measure} {w : WatchPoint} : tracks k degraded m w = true ↔
    k = .monitor ∧ degraded = false ∧ w.tracking = true ∧ m.saturated = false ∧
      (w.condition = .normal ∨ w.condition = .watch) := by
  simp only [tracks, Bool.and_eq_true, Bool.or_eq_true, decide_eq_true_iff, Bool.not_eq_true', and_assoc]

section Tracked

variable (s : State) (c : Current) (e : Evaluation) (g : Segment) (m : Measure) (w : WatchPoint)

/-- Tracking changes the centre lag alone (R89). -/
theorem tracked_frame : s.tracked c e g m w = { w with centre := (s.tracked c e g m w).centre } := by
  unfold State.tracked
  split <;> rfl

theorem centre_tracked : (s.tracked c e g m w).centre = if tracks c.work.sweepKind e.degraded m w then
    movedLag (s.template w.template) (s.nominalLag g.housing) c.len g.centre m.offset else w.centre := by
  unfold State.tracked
  split <;> rfl

end Tracked

section PostChange

variable {s : State} {p : Pair} {n : Nat} {old new : WatchPoint}

theorem postChange_due (h : old.condition ≠ new.condition) (hq : old.quarantine = none) : s.postChange p n old new =
    s.post new.queue (.conditionChange p n old.condition new.condition (orZero new.level) new.deviation) :=
  if_pos ⟨h, hq⟩

theorem postChange_rest (h : new.condition = old.condition ∨ old.quarantine ≠ none) : s.postChange p n old new = s :=
  if_neg fun ⟨hne, hq⟩ => h.elim (fun h => hne h.symm) fun h => h hq

theorem postChange_frame : s.postChange p n old new = { s with queues := (s.postChange p n old new).queues } := by
  unfold State.postChange
  split <;> rfl

end PostChange

/-- The watch point that the action on a housing segment writes (R78). -/
def State.housingWritten (s : State) (c : Current) (e : Evaluation) (g : Segment) : WatchPoint :=
  let m := s.measure g c.work.periods c.len
  s.tracked c e g m (housingAfter e c.work.sweepKind m s.epoch (s.wp c.work.pair g.housing))

section HousingAction

variable (s : State) (c : Current) (e : Evaluation) (g : Segment)

theorem housingAction_eq : s.housingAction c e g =
    { (s.setWp c.work.pair g.housing (s.housingWritten c e g)).postChange c.work.pair g.housing
        (s.wp c.work.pair g.housing) (s.housingWritten c e g) with
      evaluation := some ((e.counted (s.measure g c.work.periods c.len)).settleStage c.work.sweepKind) } := rfl

theorem housingAction_frame : s.housingAction c e g =
    { s.setWp c.work.pair g.housing (s.housingWritten c e g) with
      queues := (s.housingAction c e g).queues
      evaluation := some ((e.counted (s.measure g c.work.periods c.len)).settleStage c.work.sweepKind) } := by
  rw [housingAction_eq, postChange_frame]

theorem wp_housingAction_same : (s.housingAction c e g).wp c.work.pair g.housing = s.housingWritten c e g := by
  rw [housingAction_frame]
  exact wp_setWp_same ..

end HousingAction

theorem nominalLag_repeater (s : State) {n : Nat} (h : n ≠ 0) : s.nominalLag n = (s.housing n).lag := if_neg h

/-- The written watch point with the numbers of its segment named. -/
theorem housingWritten_frame (s : State) (c : Current) (e : Evaluation) (g : Segment) :
    let m := s.measure g c.work.periods c.len
    let new := housingAfter e c.work.sweepKind m s.epoch (s.wp c.work.pair g.housing)
    s.housingWritten c e g = { s.wp c.work.pair g.housing with
      level := some m.level, norm := some (normOf e.policy.normalise m.level e.refLevel), offset := m.offset
      edge := m.edge, saturated := m.saturated, updated := s.epoch, baseline := new.baseline
      deviation := new.deviation, condition := new.condition, centre := (s.housingWritten c e g).centre } := by
  intro m new
  have htracked := tracked_frame s c e g m new
  have hnew : new = _ := housingAfter_frame e c.work.sweepKind m s.epoch (s.wp c.work.pair g.housing)
  have hcentre (x : Nat) : { new with centre := x } = { s.wp c.work.pair g.housing with
      level := some m.level, norm := some (normOf e.policy.normalise m.level e.refLevel), offset := m.offset
      edge := m.edge, saturated := m.saturated, updated := s.epoch, baseline := new.baseline
      deviation := new.deviation, condition := new.condition, centre := x } := by
    rw [hnew]
    rfl
  exact htracked.trans (hcentre _)

/-- Settles O46: the frame of the written watch point, and its condition by capture, saturation and classification. -/
theorem housingSegmentIsWritten : Obligations.HousingSegmentIsWritten := by
  intro s c e g rest h hr h0 h192 p n old values saturated level offset norm deviation captures
  have hm : s.measure g c.work.periods c.len =
      ⟨level, offset, decide (offset = 0 ∨ offset + 1 = g.width), saturated⟩ := measure_eq ..
  have hexec : exec .watchPointAction s = .next (s.housingAction c e g) := by
    rw [exec_watchPointAction h hr, if_neg h0]
  let m : Measure := ⟨level, offset, decide (offset = 0 ∨ offset + 1 = g.width), saturated⟩
  let new := housingAfter e c.work.sweepKind m s.epoch old
  have hwritten : s.housingWritten c e g = { old with
      level := some level, norm := some norm, offset := offset, edge := m.edge, saturated := saturated
      updated := s.epoch, baseline := new.baseline, deviation := new.deviation, condition := new.condition
      centre := (s.housingWritten c e g).centre } := by
    have hnew := housingWritten_frame s c e g
    rw [hm] at hnew
    exact hnew
  have hwp : (s.housingAction c e g).wp p n = s.housingWritten c e g := wp_housingAction_same s c e g
  have hother (q : Pair) (i : Nat) (hi : i ≤ 192) (hne : q ≠ p ∨ i ≠ n) : (s.housingAction c e g).wp q i = s.wp q i := by
    rw [housingAction_frame]
    exact wp_setWp_elsewhere s _ h192 hi hne
  have hqueues : (s.housingAction c e g).queues = ((s.setWp p n (s.housingWritten c e g)).postChange p n old
    (s.housingWritten c e g)).queues := rfl
  have hframe := housingAction_frame s c e g
  rw [hm] at hframe
  have htail : (e.counted m).remaining = rest := congrArg List.tail hr
  have hcounted := settleStage_frame (e.counted m) c.work.sweepKind
  generalize s.housingAction c e g = t at *
  generalize s.housingWritten c e g = written at *
  have hcondition : written.condition = new.condition := by rw [hwritten]
  refine ⟨t, (e.counted m).settleStage c.work.sweepKind, hexec, by rw [hframe], ?_, ?_, ?_, ?_, ?_, ?_,
    fun hcap hl => ?lowCapture, fun hcap hl => ?capture, fun hcap => ?kept, fun hsat => ?saturated,
    fun hcap hsat => ?classified, fun hne hq => ?posted, fun hne => ?silent, ?written, hother, ?_, ?_, ?_, ?_, ?_, ?_, ?_,
    fun hrest => ?more, fun hrest => ?last, ?frame⟩
  · rw [hwp, hwritten]
  · rw [hwp, hwritten]
  · rw [hwp, hwritten]
  · rw [hwp, hwritten]
  · rw [hwp, hwritten]
  · rw [hwp, hwritten]
  case lowCapture =>
    have hnew : new = _ := housingAfter_captures (e := e) (k := c.work.sweepKind) (m := m) hcap s.epoch
    rw [if_neg (Nat.not_le.mpr hl)] at hnew
    rw [hwp, hwritten, hnew]
    exact ⟨rfl, rfl, rfl⟩
  case capture =>
    have hnew : new = _ := housingAfter_captures (e := e) (k := c.work.sweepKind) (m := m) hcap s.epoch
    rw [if_pos hl] at hnew
    rw [hwp, hwritten, hnew]
    exact ⟨rfl, rfl, rfl⟩
  case kept =>
    have hnew : new = _ := housingAfter_classifies (e := e) (k := c.work.sweepKind) (m := m) hcap s.epoch
    rw [hwp, hwritten, hnew]
    exact ⟨rfl, rfl⟩
  case saturated =>
    rw [hwp, hcondition]
    exact condition_saturated hsat s.epoch
  case classified =>
    have hfresh : new.condition = classify e.policy level deviation := 
      condition_classified (e := e) (k := c.work.sweepKind) (m := m) hcap hsat s.epoch
    rw [hwp, hcondition, hfresh]
    refine ⟨fun hl => classify_absent hl _, fun hl hb => ?_, fun d hl hd => ?_⟩
    · have hd : deviation = none := congrArg (Option.map _) hb
      rw [hd, classify_unreferenced hl]
    · rw [hd, classify_some hl]
  case posted =>
    rw [hwp] at hne ⊢
    rw [hqueues, postChange_due hne.symm hq, hwritten]
    rfl
  case silent =>
    rw [hwp] at hne
    rw [hqueues, postChange_rest hne]
    rfl
  case written =>
    rw [hwp, hwritten]
  · rw [hcounted]; exact htail
  · rw [hcounted]; rfl
  · rw [hcounted]; rfl
  · rw [hcounted]; rfl
  · rw [hcounted]; rfl
  · rw [hcounted]; rfl
  · rw [hcounted]; rfl
  case more => exact (stage_settleStage_remaining (by rw [htail]; exact hrest) _).trans h.stage_eq
  case last =>
    exact (stage_settleStage_done (by rw [htail]; exact hrest) _).trans (stageAfterSegments_eq ..)
  case frame =>
    rw [hframe]
    rfl

/-- Settles O47: tracking by its test, on the watch point the action wrote. -/
theorem trackingMovesTheCentreLag : Obligations.TrackingMovesTheCentreLag := by
  intro s t c e g rest h hr h0 h192 hexec p n form half limit nominal shift moves
  have hdone : exec .watchPointAction s = .next (s.housingAction c e g) := by
    rw [exec_watchPointAction h hr, if_neg h0]
  obtain rfl : s.housingAction c e g = t := Host.Outcome.next.inj (hdone.symm.trans hexec)
  let m := s.measure g c.work.periods c.len
  let new := housingAfter e c.work.sweepKind m s.epoch (s.wp p n)
  have hwp : (s.housingAction c e g).wp p n = s.housingWritten c e g := wp_housingAction_same s c e g
  have hwritten : s.housingWritten c e g = _ := housingWritten_frame s c e g
  have hnew : new = _ := housingAfter_frame e c.work.sweepKind m s.epoch (s.wp p n)
  have hcentre : (s.housingWritten c e g).centre = _ := centre_tracked s c e g m new
  have htemplate : new.template = (s.wp p n).template := by rw [hnew]; rfl
  have htracking : new.tracking = (s.wp p n).tracking := by rw [hnew]; rfl
  have hstays : new.centre = (s.wp p n).centre := by rw [hnew]; rfl
  have hoffset : ((s.housingAction c e g).wp p n).offset = m.offset := by rw [hwp, hwritten]
  have hsaturated : ((s.housingAction c e g).wp p n).saturated = m.saturated := by rw [hwp, hwritten]
  have hcondition : ((s.housingAction c e g).wp p n).condition = new.condition := by rw [hwp, hwritten]
  have htracks : tracks c.work.sweepKind e.degraded m new = true ↔ moves := by
    rw [tracks_iff, htracking, ← hsaturated, ← hcondition]
  have hlag : s.nominalLag g.housing = (s.housing n).lag := nominalLag_repeater s h0
  refine ⟨fun hmoves => ?_, fun hstill => ?_⟩
  · rw [hwp, hcentre, if_pos (htracks.mpr hmoves), htemplate, hlag, ← hoffset]
    rfl
  · rw [hwp, hcentre, if_neg (mt htracks.mp hstill), hstays]

end Sys2Proof.Machine
end

section
/-! SUPPORT. The scan: the items, the skip set, the lead and the kind. -/

namespace Sys2Proof.Machine

/-! ### What a scan reads -/

theorem observed_iff {c : Condition} : c.observed = true ↔ c = .normal ∨ c = .watch ∨ c = .low ∨ c = .absent := by
  cases c <;> simp [Condition.observed]

theorem repeaters_sorted : repeaters.Pairwise (· < ·) :=
  List.pairwise_map.mpr (List.pairwise_lt_range.imp fun h => Nat.succ_lt_succ h)

theorem observedList_sorted (s : State) (p : Pair) :
    (s.observedList p).Pairwise fun a b => a.housing < b.housing :=
  List.pairwise_map.mpr (repeaters_sorted.filter _)

theorem mem_observedList {s : State} {p : Pair} {i : Item} : i ∈ s.observedList p ↔
    1 ≤ i.housing ∧ i.housing ≤ 192 ∧ (s.wp p i.housing).enabled = true ∧
      i.condition = (s.wp p i.housing).condition ∧ i.deviation = (s.wp p i.housing).deviation ∧
      (i.condition = .normal ∨ i.condition = .watch ∨ i.condition = .low ∨ i.condition = .absent) := by
  simp only [State.observedList, List.mem_map, List.mem_filter, mem_repeaters, Bool.and_eq_true, observed_iff]
  constructor
  · rintro ⟨n, ⟨⟨h1, h2⟩, he, ho⟩, rfl⟩
    exact ⟨h1, h2, he, rfl, rfl, ho⟩
  · rintro ⟨h1, h2, he, hc, hd, ho⟩
    refine ⟨i.housing, ⟨⟨h1, h2⟩, he, hc ▸ ho⟩, ?_⟩
    rw [← hc, ← hd]

theorem mem_marks {s : State} {p : Pair} {q d : Nat} :
    (q, d) ∈ s.marks p ↔ 1 ≤ q ∧ q ≤ 192 ∧ (s.wp p q).quarantine = some d := by
  simp only [State.marks, List.mem_filterMap, mem_repeaters, Option.map_eq_some_iff, Prod.mk.injEq]
  constructor
  · rintro ⟨n, ⟨h1, h2⟩, x, hx, rfl, rfl⟩
    exact ⟨h1, h2, hx⟩
  · rintro ⟨h1, h2, hd⟩
    exact ⟨q, ⟨h1, h2⟩, d, hd, rfl, rfl⟩

theorem mem_skipSet {items : List Item} {marks : List (Nat × Nat)} {h : Nat} : h ∈ skipSet items marks ↔
    ∃ q d, (q, d) ∈ marks ∧
      (h = q ∨ h ∈ (((items.filter fun i => decide (q < i.housing ∧ i.condition ≠ .absent)).take d).map (·.housing))) := by
  simp only [skipSet, skipZone, List.mem_flatMap, List.mem_cons, Prod.exists, Bool.decide_and]

/-! ### The lead and the kind -/

/-- An item that can be the lead (R99). -/
def Item.qualifies (skip : List Nat) (i : Item) : Prop := i.housing ∉ skip ∧ i.condition ≠ .normal

theorem leadOf_test {skip : List Nat} {i : Item} :
    (decide (i.housing ∉ skip) && decide (i.condition ≠ .normal)) = true ↔ i.qualifies skip := by
  rw [Bool.and_eq_true, decide_eq_true_iff, decide_eq_true_iff, Item.qualifies]

theorem leadOf_eq_none {items : List Item} {skip : List Nat} :
    leadOf items skip = none ↔ ∀ i ∈ items, ¬ i.qualifies skip := by
  rw [leadOf, List.find?_eq_none]
  exact forall₂_congr fun i _ => not_congr leadOf_test

theorem leadOf_eq_some {before rest : List Item} {f : Item} {skip : List Nat}
    (hb : ∀ i ∈ before, ¬ i.qualifies skip) (hf : f.qualifies skip) : leadOf (before ++ f :: rest) skip = some f := by
  rw [leadOf, List.find?_append, List.find?_eq_none.mpr fun i hi => mt leadOf_test.mp (hb i hi), Option.none_or]
  exact List.find?_cons_of_pos (leadOf_test.mpr hf)

theorem candidateOf_none {policy : Policy} {items : List Item} {marks : List (Nat × Nat)}
    (h : leadOf items (skipSet items marks) = none) : candidateOf policy items marks = none := by rw [candidateOf, h]

theorem candidateOf_some {policy : Policy} {items : List Item} {marks : List (Nat × Nat)} {f : Item}
    (h : leadOf items (skipSet items marks) = some f) : candidateOf policy items marks = some
      ⟨if f.condition = .absent then darkKind (itemsAfter items f.housing)
        else dimKind policy f (itemsAfter items f.housing), f.housing⟩ := by rw [candidateOf, h]

theorem darkKind_eq (after : List Item) : darkKind after =
    if ∀ i ∈ after, i.condition = .absent then .sectionOpen
    else if (after.head?.map (·.condition)) ≠ some .absent then .loopbackFault else .unresolved := by
  have hall : (after.all fun i => decide (i.condition = .absent)) = true ↔ ∀ i ∈ after, i.condition = .absent := by
    simp only [List.all_eq_true, decide_eq_true_iff]
  cases after with
  | nil => exact (if_pos fun _ h => nomatch h).symm
  | cons next rest =>
    refine if_congr hall rfl ?_
    by_cases h : next.condition = .absent
    · exact (if_pos h).trans (if_neg fun hne => hne (congrArg some h)).symm
    · exact (if_neg h).trans (if_pos fun he => h (Option.some.inj he)).symm

theorem within_iff {tolerance a b : Nat} : within tolerance a b = true ↔ a ≤ b + tolerance ∧ b ≤ a + tolerance := by
  rw [within, Bool.and_eq_true, decide_eq_true_iff, decide_eq_true_iff]
  omega

theorem uniformItem_iff {tolerance d : Nat} {i : Item} : uniformItem tolerance d i = true ↔
    i.condition ≠ .absent ∧ i.deviation.isSome ∧ orZero i.deviation ≤ d + tolerance ∧
      d ≤ orZero i.deviation + tolerance := by
  unfold uniformItem
  rw [Bool.and_eq_true, decide_eq_true_iff]
  cases i.deviation with
  | none => simp
  | some x => simp [within_iff, orZero]

theorem dimKind_eq (p : Policy) (f : Item) (after : List Item) : dimKind p f after =
    if ∃ i ∈ after.take p.recoveryDepth, i.condition = .normal then .amplifierDegraded
    else if f.deviation.isSome ∧ ∀ i ∈ after, i.condition ≠ .absent ∧ i.deviation.isSome ∧
        (orZero i.deviation ≤ orZero f.deviation + p.tolerance) ∧
        (orZero f.deviation ≤ orZero i.deviation + p.tolerance) then .sectionExcessLoss
    else .unresolved := by
  have hany : ((after.take p.recoveryDepth).any fun i => decide (i.condition = .normal)) = true ↔
      ∃ i ∈ after.take p.recoveryDepth, i.condition = .normal := by
    simp only [List.any_eq_true, decide_eq_true_iff]
  refine if_congr hany rfl ?_
  cases hd : f.deviation with
  | none => exact (if_neg fun h => absurd h.1 (by decide)).symm
  | some d =>
    refine if_congr ?_ rfl rfl
    rw [List.all_eq_true]
    exact (and_iff_right rfl).symm.trans (and_congr_right fun _ => forall₂_congr fun i _ => uniformItem_iff)

/-- Settles O48: the lists by membership, the lead as the first item that qualifies, the kind test by test. -/
theorem scanNamesTheLeadAndKind : Obligations.ScanNamesTheLeadAndKind := by
  refine ⟨fun s p policy => ⟨rfl, observedList_sorted s p, fun i => mem_observedList, fun q d => mem_marks⟩,
    fun items marks h => mem_skipSet, ?candidate⟩
  case candidate =>
    intro policy items marks skip qualifies
    refine ⟨⟨fun hnone => ?_, fun hall => candidateOf_none (leadOf_eq_none.mpr hall)⟩, ?some⟩
    · refine leadOf_eq_none.mp (Option.eq_none_iff_forall_ne_some.mpr fun f hf => ?_)
      rw [candidateOf_some hf] at hnone
      cases hnone
    case some =>
      intro before f rest hitems hb hf after near kind
      have hlead : leadOf items skip = some f := by
        rw [hitems]
        exact leadOf_eq_some hb hf
      rw [candidateOf_some hlead, darkKind_eq, dimKind_eq]
      rfl

end Sys2Proof.Machine
end

section
/-! SUPPORT. The confirmation of a verdict, isolation and escalation, and the end of an evaluation. -/

namespace Sys2Proof.Machine

/-! ### The actions at their stages -/

section Exec

variable {s : State} {c : Current} {e : Evaluation}

theorem exec_streakUpdate (h : s.evaluatingAt .streak c e) : exec .streakUpdate s = .next
    (let v := (s.verdict c.work.pair).streakAfter (s.scan c.work.pair e.policy)
     (s.setVerdict c.work.pair v).toStage e (v.nextStage e.policy.confirmCount)) := by
  change execStreakUpdate s = _
  rw [execStreakUpdate, live_next h.1, atStage_at h]

theorem exec_verdictClearing (h : s.evaluatingAt .clearing c e) :
    exec .verdictClearing s = .next ((s.postCleared c.work.pair .replaced).toStage e .replacement) := by
  change execVerdictClearing s = _
  rw [execVerdictClearing, live_next h.1, atStage_at h]

theorem exec_verdictReplacement (h : s.evaluatingAt .replacement c e) : exec .verdictReplacement s = .next
    (((s.setVerdict c.work.pair (s.verdict c.work.pair).replaced).withdraw (Work.ofPair c.work.pair)).toStage e
      (if (s.verdict c.work.pair).replaced.confirmed = none then .finished else .raising)) := by
  change execVerdictReplacement s = _
  rw [execVerdictReplacement, live_next h.1, atStage_at h]

theorem exec_verdictRaise (h : s.evaluatingAt .raising c e) {v : Verdict}
    (hv : (s.verdict c.work.pair).confirmed = some v) :
    exec .verdictRaise s = .next ((s.raise c.work.pair v).toStage e .isolation) := by
  change execVerdictRaise s = _
  rw [execVerdictRaise, live_next h.1, atStage_at h, hv]

theorem exec_isolationStart (h : s.evaluatingAt .isolation c e) {v : Verdict}
    (hv : (s.verdict c.work.pair).confirmed = some v) :
    exec .isolationStart s = .next ((s.startIsolation c.work.pair v).toStage e .finished) := by
  change execIsolationStart s = _
  rw [execIsolationStart, live_next h.1, atStage_at h, hv]

theorem exec_postSwapEscalation (h : s.evaluatingAt .escalation c e) :
    exec .postSwapEscalation s = .next ((s.escalate c.work.pair e.policy).toStage e .finished) := by
  change execPostSwapEscalation s = _
  rw [execPostSwapEscalation, live_next h.1, atStage_at h]

theorem exec_baselineVerdictClearing (h : s.evaluatingAt .rebaseline c e) : exec .baselineVerdictClearing s = .next
    ((((s.postCleared c.work.pair .rebaselined).setVerdict c.work.pair (verdictDefault c.work.pair.val)).withdraw
      (Work.ofPair c.work.pair)).toStage e .finished) := by
  change execBaselineVerdictClearing s = _
  rw [execBaselineVerdictClearing, live_next h.1, atStage_at h]

theorem exec_evaluationDone (h : s.evaluatingAt .finished c e) : exec .evaluationDone s = .next
    (s.sweepEnds c.work c.work.sweepKind e.outcome e.evaluated e.saturated).answerDeferred := by
  change execEvaluationDone s = _
  rw [execEvaluationDone, live_next h.1, atStage_at h]

end Exec

/-! ### Confirmation -/

theorem filter_ofPair (p : Pair) (l : List Work) :
    l.filter (fun w => !Work.ofPair p w) = l.filter fun w => decide (w.pair ≠ p) :=
  List.filter_congr fun _ _ => (decide_not ..).symm

theorem postCleared_some {s : State} {p : Pair} {v : Verdict} (h : (s.verdict p).confirmed = some v) (cause : ClearCause) :
    s.postCleared p cause = s.post (s.policy p).verdictQueue (.verdictCleared p v cause) := by
  rw [State.postCleared, h]
  rfl

theorem postCleared_none {s : State} {p : Pair} (h : (s.verdict p).confirmed = none) (cause : ClearCause) :
    s.postCleared p cause = s := by rw [State.postCleared, h]

section Replaced

variable {v : VerdictRegister}

theorem replaced_none (h : v.candidate = none) :
    v.replaced = { v with confirmed := none, raised := 0, status := .notApplicable, postSwap := 0 } := by
  rw [VerdictRegister.replaced, h]

theorem replaced_some {x : Verdict} (h : v.candidate = some x) : v.replaced = { v with confirmed := some x } := by
  rw [VerdictRegister.replaced, h]

end Replaced

theorem getLsbD_alarmVerdict (s : State) (p q : Pair) : (s.alarmVerdict p).alarms.verdict.getLsbD q.val =
    (decide (q = p) || s.alarms.verdict.getLsbD q.val) := by
  have hbit : (BitVec.twoPow 8 p.val).getLsbD q.val = decide (q = p) := by
    rw [BitVec.getLsbD_twoPow, decide_eq_true p.isLt, Bool.true_and]
    exact decide_eq_decide.mpr ⟨fun h => Fin.ext h.symm, fun h => h ▸ rfl⟩
  change (s.alarms.verdict ||| BitVec.twoPow 8 p.val).getLsbD q.val = _
  rw [BitVec.getLsbD_or, hbit, Bool.or_comm]

theorem raise_eq (s : State) (p : Pair) (x : Verdict) : s.raise p x = { s with
    verdicts := (s.setVerdict p { s.verdict p with raised := s.epoch, postSwap := 0 }).verdicts
    queues := (s.post (s.policy p).verdictQueue (.verdictRaised p x)).queues
    alarms := (s.alarmVerdict p).alarms } := by
  unfold State.raise
  rfl

/-- Settles O49: the four actions at their stages. -/
theorem confirmationReplacesVerdict : Obligations.ConfirmationReplacesVerdict := by
  refine ⟨fun s c e h => exec_streakUpdate h, fun s c e v h hv => ?clearing, fun s c e h => ?replacement,
    fun s c e v h hv => ?raising⟩
  case clearing => rw [exec_verdictClearing h, postCleared_some hv]; rfl
  case replacement =>
    intro p old
    refine ⟨_, exec_verdictReplacement h, fun hnone => ?_, fun hsome => ?_, fun q hq => ?_, filter_ofPair .., rfl⟩
    · have hnew := replaced_none hnone
      refine ⟨(verdict_setVerdict_same ..).trans hnew, ?_⟩
      rw [if_pos (by rw [hnew])]
      rfl
    · obtain ⟨x, hx⟩ := Option.ne_none_iff_exists'.mp hsome
      have hnew := replaced_some hx
      refine ⟨(verdict_setVerdict_same ..).trans (hnew.trans (by rw [hx])), ?_⟩
      rw [if_neg (by rw [hnew]; exact Option.some_ne_none x)]
      rfl
    · exact verdict_setVerdict_other _ _ hq
  case raising =>
    intro p
    have hexec := exec_verdictRaise h hv
    rw [raise_eq] at hexec
    refine ⟨_, hexec, verdict_setVerdict_same .., fun q hq => verdict_setVerdict_other _ _ hq, rfl,
      fun q => getLsbD_alarmVerdict s p q, rfl, rfl⟩

/-! ### Isolation -/

/-- A housing set aside: its mark, its record and the status of the pair (R108). -/
theorem setAside_spec (s : State) (p : Pair) {n : Nat} (hn : n ≤ 192) (depth : Nat) :
    (s.setAside p n depth).verdict p = { s.verdict p with status := .quarantined } ∧
    (∀ q, q ≠ p → (s.setAside p n depth).verdict q = s.verdict q) ∧
    ((s.setAside p n depth).wp p n).quarantine = some depth ∧ s.autoQuarantined (s.setAside p n depth) p n depth ∧
    s.setAside p n depth = { s with
      verdicts := (s.setAside p n depth).verdicts, watchPoints := (s.setAside p n depth).watchPoints
      queues := (s.setAside p n depth).queues } := by
  obtain ⟨hmark, hdepth, hframe⟩ := markQuarantine_auto s p hn depth
  have hverdict (q : Pair) : (s.markQuarantine p n depth .auto).verdict q = s.verdict q := by rw [hframe]; rfl
  unfold State.setAside
  refine ⟨?_, fun q hq => ?_, hdepth, hmark, ?_⟩
  · rw [verdict_setStatus_same, hverdict]
  · rw [verdict_setStatus_other _ _ hq, hverdict]
  · generalize s.markQuarantine p n depth .auto = u at *
    rw [hframe]
    rfl

theorem autoPermitted_iff {s : State} {p : Policy} :
    s.autoPermitted p = true ↔ s.straps.autoPermit = true ∧ p.autoIsolate = true := by
  rw [State.autoPermitted, Bool.and_eq_true]

theorem canSwap_iff {s : State} {p : Pair} {n : Nat} :
    s.canSwap p n = true ↔ (s.housing n).swapCapable = true ∧ (s.wp p n).pump ≠ .secondary := by
  rw [State.canSwap, Bool.and_eq_true, decide_eq_true_iff]

/-- Kinds of fault that isolation answers (R106, R107). -/
def Verdict.isolates (v : Verdict) : Prop := v.kind = .amplifierDegraded ∨ v.kind = .loopbackFault

section StartIsolation

variable {s : State} {p : Pair} {v : Verdict}

theorem startIsolation_other (h : ¬ v.isolates) : s.startIsolation p v = s.setStatus p .notApplicable := by
  unfold State.startIsolation
  cases hk : v.kind with
  | amplifierDegraded => exact absurd (.inl hk) h
  | loopbackFault => exact absurd (.inr hk) h
  | sectionOpen | sectionExcessLoss | unresolved => rfl

theorem startIsolation_forbidden (h : v.isolates) (hp : ¬ s.autoPermitted (s.policy p) = true) :
    s.startIsolation p v = s.setStatus p .notPermitted := by
  have hno : (!s.autoPermitted (s.policy p)) = true := by rw [Bool.not_eq_true', ← Bool.not_eq_true]; exact hp
  unfold State.startIsolation
  obtain hk | hk := h <;> rw [hk] <;> exact if_pos hno

theorem startIsolation_swap (hk : v.kind = .amplifierDegraded) (hp : s.autoPermitted (s.policy p) = true)
    (hs : s.canSwap p v.lead = true) : s.startIsolation p v = (s.placeIsolation p v.lead).setStatus p .pending := by
  unfold State.startIsolation
  rw [hk]
  exact (if_neg (by rw [hp]; decide)).trans (if_pos hs)

theorem startIsolation_aside (h : v.isolates) (hp : s.autoPermitted (s.policy p) = true)
    (hs : v.kind = .amplifierDegraded → ¬ s.canSwap p v.lead = true) : s.startIsolation p v =
      s.setAside p v.lead (if v.kind = .amplifierDegraded then (s.policy p).recoveryDepth else 0) := by
  have hyes : ¬ (!s.autoPermitted (s.policy p)) = true := by rw [hp]; decide
  unfold State.startIsolation
  obtain hk | hk := h
  · rw [if_pos hk]
    have hno := hs hk
    rw [hk]
    exact (if_neg hyes).trans (if_neg hno)
  · rw [hk]
    exact if_neg hyes

/-- The tag of a placed PUMP_SWAP is free among what stays after the pair's entry is withdrawn (R41, R43). -/
theorem nextFree_withdraw {c : Current} (hc : s.current = some c) :
    nextFree (s.workQueue.map (·.tag) ++ (s.isolationQueue.filter fun w => decide (w.pair ≠ p)).map (·.tag) ++
      [c.work.tag]) s.tagCounter (s.withdraw (Work.ofPair p)).nextTag := by
  have hfree := nextTag_nextFree (s.withdraw (Work.ofPair p))
  have hheld : (s.withdraw (Work.ofPair p)).heldTags = s.workQueue.map (·.tag) ++
      (s.isolationQueue.filter fun w => decide (w.pair ≠ p)).map (·.tag) ++ [c.work.tag] := by
    rw [← filter_ofPair, State.heldTags, show (s.withdraw (Work.ofPair p)).current = some c from hc]
    rfl
  rwa [hheld] at hfree

theorem placeIsolation_eq (n : Nat) : s.placeIsolation p n = { s with
    isolationQueue := s.isolationQueue.filter (fun w => decide (w.pair ≠ p)) ++
      [⟨(s.withdraw (Work.ofPair p)).nextTag, .auto, p, .command n .pumpSwap 2⟩]
    tagCounter := (s.withdraw (Work.ofPair p)).nextTag + 1 } := by
  rw [← filter_ofPair]
  rfl

end StartIsolation

section Escalate

variable {s : State} {p : Pair} {policy : Policy}

/-- The register with one post-swap sweep more (R112). -/
def State.swapCounted (s : State) (p : Pair) : State :=
  s.setVerdict p { s.verdict p with postSwap := (s.verdict p).postSwap + 1 }

theorem escalate_below (h : (s.verdict p).postSwap + 1 < policy.confirmCount) :
    s.escalate p policy = s.swapCounted p := if_neg (Nat.not_le.mpr h)

theorem escalate_reached (h : policy.confirmCount ≤ (s.verdict p).postSwap + 1) {v : Verdict}
    (hv : (s.verdict p).confirmed = some v) : s.escalate p policy =
      if s.autoPermitted policy then (s.swapCounted p).setAside p v.lead policy.recoveryDepth
      else (s.swapCounted p).setStatus p .failed := by
  refine (if_pos h).trans ?_
  show (match (s.verdict p).confirmed with
    | none => s.swapCounted p
    | some x => if s.autoPermitted policy then (s.swapCounted p).setAside p x.lead policy.recoveryDepth
      else (s.swapCounted p).setStatus p .failed) = _
  rw [hv]

end Escalate

/-- What a status alone changes. -/
theorem setStatus_spec (s : State) (p : Pair) (st : IsolationStatus) :
    (s.setStatus p st).verdict p = { s.verdict p with status := st } ∧
    (∀ q, q ≠ p → (s.setStatus p st).verdict q = s.verdict q) ∧
    s.setStatus p st = { s with verdicts := (s.setStatus p st).verdicts } :=
  ⟨verdict_setStatus_same .., fun _ hq => verdict_setStatus_other _ _ hq, rfl⟩

theorem eq_of_status {a b : VerdictRegister} {st : IsolationStatus} (h : a = { b with status := st }) :
    a = { b with status := a.status } := by rw [h]

/-- Settles O50: isolation case by case, and escalation by the count. -/
theorem isolationStartsAndEscalates : Obligations.IsolationStartsAndEscalates := by
  refine ⟨fun s c e v h hv hlead => ?start, fun s c e v h hv hlead => ?escalation⟩
  case start =>
    intro p permitted swap depth isolates
    have hexec := exec_isolationStart h hv
    have hpermitted : s.autoPermitted (s.policy p) = true ↔ permitted := autoPermitted_iff
    have hswap : s.canSwap p v.lead = true ↔ swap := canSwap_iff
    by_cases hi : isolates
    · by_cases hp : permitted
      · by_cases hs : v.kind = .amplifierDegraded ∧ swap
        · rw [startIsolation_swap hs.1 (hpermitted.mpr hp) (hswap.mpr hs.2), placeIsolation_eq] at hexec
          obtain ⟨hsame, hother, -⟩ := setStatus_spec s p .pending
          exact ⟨_, hexec, rfl, eq_of_status hsame, hother, fun hn => absurd hi hn, fun _ hn => absurd hp hn,
            fun hn => absurd ⟨hi, hp⟩ (not_and_or.mpr hn),
            fun _ _ _ => ⟨congrArg VerdictRegister.status hsame, _, nextFree_withdraw h.2.1, rfl, rfl, rfl⟩,
            fun _ _ hn => absurd hs.2 (hn hs.1)⟩
        · rw [startIsolation_aside hi (hpermitted.mpr hp) fun hk => mt hswap.mp fun hn => hs ⟨hk, hn⟩] at hexec
          obtain ⟨hsame, hother, hmark, hauto, hframe⟩ := setAside_spec s p hlead depth
          generalize s.setAside p v.lead depth = t at *
          exact ⟨_, hexec, rfl, eq_of_status hsame, hother, fun hn => absurd hi hn, fun _ hn => absurd hp hn,
            fun hn => absurd ⟨hi, hp⟩ (not_and_or.mpr hn), fun hk _ hn => absurd ⟨hk, hn⟩ hs,
            fun _ _ _ => ⟨congrArg VerdictRegister.status hsame, hmark, hauto, by rw [hframe]; rfl⟩⟩
      · rw [startIsolation_forbidden hi (mt hpermitted.mp hp)] at hexec
        obtain ⟨hsame, hother, -⟩ := setStatus_spec s p .notPermitted
        exact ⟨_, hexec, rfl, eq_of_status hsame, hother, fun hn => absurd hi hn,
          fun _ _ => congrArg VerdictRegister.status hsame, fun _ => rfl, fun _ hn => absurd hn hp,
          fun _ hn => absurd hn hp⟩
    · rw [startIsolation_other hi] at hexec
      obtain ⟨hsame, hother, -⟩ := setStatus_spec s p .notApplicable
      exact ⟨_, hexec, rfl, eq_of_status hsame, hother, fun _ => congrArg VerdictRegister.status hsame,
        fun hn => absurd hn hi, fun _ => rfl, fun hk => absurd (.inl hk) hi, fun hn => absurd hn hi⟩
  case escalation =>
    intro p count permitted depth
    have hexec := exec_postSwapEscalation h
    have hpermitted : s.autoPermitted e.policy = true ↔ permitted := autoPermitted_iff
    let counted : VerdictRegister := { s.verdict p with postSwap := count }
    have hcounted : (s.swapCounted p).verdict p = counted := verdict_setVerdict_same ..
    have hrest (q : Pair) (hq : q ≠ p) : (s.swapCounted p).verdict q = s.verdict q := verdict_setVerdict_other _ _ hq
    have hstatus : ((s.swapCounted p).verdict p).status = (s.verdict p).status := by rw [hcounted]
    have hsame : (s.swapCounted p).verdict p = { counted with status := ((s.swapCounted p).verdict p).status } := by
      rw [hcounted]
    by_cases hcount : count < e.policy.confirmCount
    · rw [escalate_below hcount] at hexec
      exact ⟨_, hexec, rfl, hsame, hrest, fun _ => ⟨hstatus, rfl⟩, fun hn => absurd hcount (Nat.not_lt.mpr hn),
        fun hn => absurd hcount (Nat.not_lt.mpr hn)⟩
    · rw [escalate_reached (Nat.not_lt.mp hcount) hv] at hexec
      by_cases hp : permitted
      · rw [if_pos (hpermitted.mpr hp)] at hexec
        obtain ⟨hsame, hother, hmark, hauto, hframe⟩ := setAside_spec (s.swapCounted p) p hlead depth
        rw [hcounted] at hsame
        generalize (s.swapCounted p).setAside p v.lead depth = t at *
        exact ⟨_, hexec, rfl, eq_of_status hsame, fun q hq => (hother q hq).trans (hrest q hq),
          fun hn => absurd hn hcount, fun _ hn => absurd hp hn,
          fun _ _ => ⟨congrArg VerdictRegister.status hsame, hmark, hauto, by rw [hframe]; rfl⟩⟩
      · rw [if_neg (mt hpermitted.mp hp)] at hexec
        obtain ⟨hsame, hother, -⟩ := setStatus_spec (s.swapCounted p) p .failed
        rw [hcounted] at hsame
        exact ⟨_, hexec, rfl, eq_of_status hsame, fun q hq => (hother q hq).trans (hrest q hq),
          fun hn => absurd hn hcount, fun _ _ => ⟨congrArg VerdictRegister.status hsame, rfl⟩,
          fun _ hn => absurd hn hp⟩

/-! ### The end of an evaluation -/

theorem queues_postCleared_some {s : State} {p : Pair} {v : Verdict} (h : (s.verdict p).confirmed = some v)
    (cause : ClearCause) : (s.postCleared p cause).queues =
      (s.post (s.policy p).verdictQueue (.verdictCleared p v cause)).queues := by rw [postCleared_some h]

/-- Settles O51: the clearing after a BASELINE evaluation, and the end with the deferred reads. -/
theorem evaluationEndsInOrder : Obligations.EvaluationEndsInOrder := by
  refine ⟨fun s c e h => ?clearing, fun s c e h => ?done⟩
  case clearing =>
    intro p
    have hexec := exec_baselineVerdictClearing h
    have hframe := postCleared_frame s p .rebaselined
    have hnone (hn : (s.verdict p).confirmed = none) := congrArg State.queues (postCleared_none hn .rebaselined)
    have hsome {v : Verdict} (hv : (s.verdict p).confirmed = some v) := queues_postCleared_some hv .rebaselined
    generalize s.postCleared p .rebaselined = t at *
    have hverdict (q : Pair) : t.verdict q = s.verdict q := by rw [hframe]; rfl
    have hkept (q : Pair) : (((t.setVerdict p (verdictDefault p.val)).withdraw (Work.ofPair p)).toStage e
        .finished).verdict q = (t.setVerdict p (verdictDefault p.val)).verdict q := rfl
    refine ⟨_, hexec, ?_, fun q hq => ?_, ?_, hnone, fun v hv => hsome hv, rfl, ?_⟩
    · rw [hkept, verdict_setVerdict_same]
      rfl
    · rw [hkept, verdict_setVerdict_other _ _ hq, hverdict]
    · refine (filter_ofPair p t.isolationQueue).trans ?_
      rw [hframe]
    · rw [hframe]
      rfl
  case done =>
    intro outcome
    have hframe := sweepEnds_frame s c.work c.work.sweepKind e.outcome e.evaluated e.saturated
    have hrests := sweepEnds_rests s c.work c.work.sweepKind e.outcome e.evaluated e.saturated
    have hexec := exec_evaluationDone h
    rw [answerDeferred_eq] at hexec
    generalize s.sweepEnds c.work c.work.sweepKind e.outcome e.evaluated e.saturated = t at *
    have hreply : t.deferredAnswers t.deferred = s.deferredAnswers s.deferred := by
      have hdeferred : t.deferred = s.deferred := by rw [hframe]
      have hwatch : t.watchPoints = s.watchPoints := by rw [hframe]
      have hverdicts : t.verdicts = s.verdicts := by rw [hframe]
      have hpolicies : t.policies = s.policies := by rw [hframe]
      rw [hdeferred]
      refine List.map_congr_left fun d _ => ?_
      rw [pairReply_congr hwatch hverdicts hpolicies]
    rw [hreply] at hexec
    refine ⟨_, hexec, hrests, rfl, ?_, ?_, ?_⟩
    · rw [hframe]; rfl
    · rw [hframe]; rfl
    · rw [hframe]

end Sys2Proof.Machine
end
